-- ==== Sys2Proof/Word.lean ====
section
/-! DEFINITION. The word types of thermocouple_frame_decoder: the values the spec treats as bits. -/

namespace Sys2Proof

/-- A command word, `cmd[33:0]` (30_encoding.md R41). -/
abbrev Command := BitVec 34

/-- The operand of a command, `cmd[31:0]` (R41). -/
abbrev Operand := BitVec 32

/-- A MAX6675 raw frame, 16 bits (00_scope.md R5, 30_encoding.md R47). -/
abbrev Frame6675 := BitVec 16

/-- A MAX31855 raw frame, 32 bits (R5, R48). -/
abbrev Frame31855 := BitVec 32

/-- A result register's contents, 16 bits, read as two's complement (R6). -/
abbrev Temp := BitVec 16

/-- One byte as the Bit-Link hands it over (20_memory.md R31). -/
abbrev Byte := BitVec 8

end Sys2Proof
end

