-- ==== Sys2Proof/Config.lean ====
section
/-! DEFINITION. The implementation parameters of the block. All are fixed by the spec (00_scope.md R5, R6, R8; the result
and fault widths are types, in Sys2Proof/Word.lean and Sys2Proof/Machine/Flags.lean); none is open, and the block has no
free value (93_implementation_defined.md: "fully deterministic"). The decode literals of R7 stand in
Sys2Proof/Machine/Constants.lean. The one open parameter the spec names, `P_SETTLE_DELAY_US`, belongs to the upstream
Bit-Link and no rule of the block reads it (R8, 92_eei_decisions.md), so it has no place here. -/

namespace Sys2Proof.Config

/-- `CMD_W`, the width of a command word (R8). -/
def cmdWidth : Nat := 34

/-- `RAW6675_W` (R5). -/
def raw6675Width : Nat := 16

/-- `RAW31855_W` (R5). -/
def raw31855Width : Nat := 32

end Sys2Proof.Config
end

