-- ==== Sys2Proof/Syntax.lean ====
section
/-! DEFINITION. The commands of the block: one constructor of `Instr` for each row of spec/opcode_table.json, and the
assembler lines and pseudo-instructions of 30_encoding.md R57 and R58. -/

namespace Sys2Proof

/-- The two sensor models (00_scope.md R2); their one-bit tag is `Model.bit` in Sys2Proof/Decode.lean (R45). -/
inductive Model where
  | max6675
  | max31855
deriving DecidableEq, Repr

/-- One command word, read. Ignored bits are kept as fields, so that a term stands for exactly one word (log entry 6). -/
inductive Instr where
  /-- NOP, op 00; the operand is ignored (R42, R59). -/
  | nop (operand : Operand)
  /-- CFG, op 01; `m` is `operand[0]`, `ignored` is `operand[31:1]` (R43, R60). -/
  | cfg (m : Model) (ignored : BitVec 31)
  /-- DEC, op 10; the operand carries the raw frame (R44, R62). -/
  | dec (operand : Operand)
  /-- RSVD, the reserved op 11 (R53). -/
  | rsvd (operand : Operand)
deriving DecidableEq, Repr

/-- A line of the spec's assembler (R57) or one of its pseudo-instructions (R58). -/
inductive AsmLine where
  /-- `NOP` -/
  | nop
  /-- `CFG model` -/
  | cfg (m : Model)
  /-- `DEC 0xHHHHHHHH` -/
  | dec (frame : BitVec 32)
  /-- `INIT model`, an alias of CFG -/
  | init (m : Model)
  /-- `READ 0xHHHHHHHH`, an alias of DEC -/
  | read (frame : BitVec 32)
  /-- `DEC16 0xHHHH`, an alias of DEC with a MAX6675 frame written at its own width -/
  | dec16 (frame : BitVec 16)
deriving DecidableEq, Repr

end Sys2Proof
end

