-- ==== Sys2Proof/WellFormed.lean ====
section
/-! DEFINITION. Which commands a host that keeps the spec's rules presents. It is no gate: decoding, encoding and the
machine's meanings cover EVERY term of `Instr`, well-formed or not (log entry 6). -/

namespace Sys2Proof

/-- The command has its ignored bits zero (R54: "A host should present zeros there"; R57: "every ignored bit zero") and
is not the reserved op (R53: "A host must not present it"). DEC's ignored bits depend on the state (R54), so no operand
of DEC is ruled out here. -/
def Instr.wellFormed : Instr → Bool
  | .nop operand => operand == 0#32
  | .cfg _ ignored => ignored == 0#31
  | .dec _ => true
  | .rsvd _ => false

end Sys2Proof
end

