-- ==== Sys2Proof/Decode.lean ====
section
/-! DEFINITION. From command words to commands and back (30_encoding.md R41 to R45, R53, R57, R58). Decoding is total on
the 2^34 words of the command port; a number that is no 34-bit word is rejected by name. -/

namespace Sys2Proof

/-- The model tag's bit: `0 = MAX6675`, `1 = MAX31855` (R45). -/
def Model.bit : Model → BitVec 1
  | .max6675 => 0#1
  | .max31855 => 1#1

/-- The model a tag bit names; both values are legal (R16, R45). -/
def Model.ofBit (b : BitVec 1) : Model :=
  if b = 0#1 then .max6675 else .max31855

/-- `cmd[33:32]` (R41). -/
def opField (w : Command) : BitVec 2 := w.extractLsb' 32 2

/-- `cmd[31:0]` (R41). -/
def operandField (w : Command) : Operand := w.extractLsb' 0 32

/-- Reads a command word: `cmd[33:32]` alone tells the command (R41). -/
def decode (w : Command) : Instr :=
  let operand := operandField w
  if opField w = 0b00#2 then .nop operand
  else if opField w = 0b01#2 then .cfg (Model.ofBit (operand.extractLsb' 0 1)) (operand.extractLsb' 1 31)
  else if opField w = 0b10#2 then .dec operand
  else .rsvd operand

/-- `{op, operand}`, the op in the high bits (R41). -/
def packWord (op : BitVec 2) (operand : Operand) : Command :=
  (op.setWidth 34 <<< 32) ||| operand.setWidth 34

/-- The operand of a CFG: the tag in `operand[0]`, the ignored bits above it (R43). -/
def packCfgOperand (m : Model) (ignored : BitVec 31) : Operand :=
  (ignored.setWidth 32 <<< 1) ||| m.bit.setWidth 32

/-- The word of a command (R42 to R44, R53). -/
def encode : Instr → Command
  | .nop operand => packWord 0b00#2 operand
  | .cfg m ignored => packWord 0b01#2 (packCfgOperand m ignored)
  | .dec operand => packWord 0b10#2 operand
  | .rsvd operand => packWord 0b11#2 operand

/-- Why a number is no command word. -/
inductive DecodeReject where
  /-- The number needs more than the 34 bits of the `cmd` port (R8, R25). -/
  | widerThanCommandPort
deriving DecidableEq, Repr

/-- Reads a number as a command word: every number of at most 34 bits is one (R24, R41). -/
def decodeNumber (w : Nat) : Except DecodeReject Instr :=
  if w < 2 ^ Config.cmdWidth then .ok (decode (BitVec.ofNat 34 w)) else .error .widerThanCommandPort

/-- The table numbers a word as the port does, bit 0 least significant (R9), and a command is one word, so laying it out
is the identity; bits above `nbits` are 0. -/
def decodeTableWord (nbits w : Nat) : Option Instr :=
  match decodeNumber (w % 2 ^ nbits) with
  | .ok i => some i
  | .error _ => none

/-- The command's name in spec/opcode_table.json. -/
def Instr.mnemonic : Instr → String
  | .nop _ => "NOP"
  | .cfg _ _ => "CFG"
  | .dec _ => "DEC"
  | .rsvd _ => "RSVD"

/-- A row of spec/opcode_table.json: a word `w` is the row's when `w &&& mask = pattern`. -/
structure OpcodeRow where
  mnemonic : String
  pattern : Command
  mask : Command
deriving DecidableEq, Repr

/-- The four rows of spec/opcode_table.json, its `match` and `mask` as they stand there. -/
def opcodeTable : List OpcodeRow :=
  [⟨"NOP", 0x000000000#34, 0x300000000#34⟩,
   ⟨"CFG", 0x100000000#34, 0x300000000#34⟩,
   ⟨"DEC", 0x200000000#34, 0x300000000#34⟩,
   ⟨"RSVD", 0x300000000#34, 0x300000000#34⟩]

/-- The command an assembler line stands for, every ignored bit zero (R57), pseudo-instructions expanded (R58). -/
def AsmLine.assemble : AsmLine → Instr
  | .nop => .nop 0#32
  | .cfg m => .cfg m 0#31
  | .dec frame => .dec frame
  | .init m => .cfg m 0#31
  | .read frame => .dec frame
  | .dec16 frame => .dec (frame.setWidth 32)

end Sys2Proof
end

