-- ==== Sys2Proof/Machine/State.lean ====
section
/-! DEFINITION. The state of the block as plain data: `Registers` is the spec's whole state, the five registers of
10_state.md R14; `State` puts beside it the input the coming steps will read, which the spec counts as no state (R22). -/

namespace Sys2Proof.Machine

/-- What the register FAULT holds (R19, 30_encoding.md R56); the 3-bit numbers are `FaultCode.code` in Flags.lean. -/
inductive FaultCode where
  | ok
  | noThermocouple
  | shortToGround
  | shortToVcc
  | notConfigured
deriving DecidableEq, Repr

/-- The two input ports in one step: `rst` and `cmd` (R25). -/
structure PortSample where
  rst : Bool
  cmd : Command
deriving DecidableEq, Repr

/-- The spec's whole state, `State = (CFGD, MODEL, TC, CJ, FAULT)` (R14, R24); it holds no input (R22). R14 says "36 bits
in all" where its own table gives 1 + 1 + 16 + 16 + 3 = 37: the widths of the table, and of R15 to R19, are followed.
DEDUCED, safe: log entry 18. -/
structure Registers where
  /-- CFGD: a Device Configuration has been established (R15). -/
  cfgd : Bool
  /-- MODEL: the configured model, meaningful only when `cfgd` (R16). -/
  model : Model
  /-- TC: thermocouple temperature of the last decode, 0.1 °C, signed (R17). -/
  tc : Temp
  /-- CJ: cold-junction temperature of the last decode, 0.01 °C, signed (R18). -/
  cj : Temp
  /-- FAULT: fault code of the last decode (R19). -/
  fault : FaultCode
deriving DecidableEq, Repr

/-- What the host's interface carries from step to step: the spec's state `Registers`, and the input still to come, which is
no part of the spec's state (R22 (1), (2)). The spec's step function, `stepOn` (Input.lean), runs on `Registers` and takes
its input as an argument. -/
structure State extends Registers where
  /-- What the input ports `rst` and `cmd` hold in the coming steps, the next step's sample first.
  DESIGN CHOICE, safe: log entry 1. -/
  pending : List PortSample
deriving DecidableEq, Repr

/-- Why the machine stops. It never does: `step` is total (R24) and "No operation in this core is fatal" (R101). The type
has no constructor; the spec's own faults are values of the register FAULT (`FaultCode`). -/
inductive Fault where
deriving DecidableEq, Repr

/-- Why an instruction has no meaning. -/
inductive Refusal where
  /-- Raised by exec's arm of an instruction that has no meaning yet; no arm raises it now. Safe: the machine stops. -/
  | notModelled (mnemonic : String)
deriving DecidableEq, Repr

/-- The spec's state after reset, every register at the value R27 gives it. -/
def Registers.reset : Registers where
  cfgd := false
  model := .max6675
  tc := 0x0000#16
  cj := 0x0000#16
  fault := .notConfigured

/-- The state after reset; no port sample is waiting (log entry 1). -/
def State.reset : State where
  toRegisters := Registers.reset
  pending := []

end Sys2Proof.Machine
end

