-- ==== Sys2Proof/Machine/Constants.lean ====
section
/-! DEFINITION. The decode literals of 00_scope.md R7, each under the spec's own name. -/

namespace Sys2Proof.Machine

/-- `F6675_OPEN_BIT`: MAX6675 open-thermocouple fault bit. -/
def f6675OpenBit : Nat := 2
/-- `F6675_SHIFT`: right shift that yields the MAX6675 magnitude. -/
def f6675Shift : Nat := 3
/-- `F31855_OC_BIT`: MAX31855 NoThermocouple fault bit. -/
def f31855OcBit : Nat := 0
/-- `F31855_SCG_BIT`: MAX31855 ShortToGround fault bit. -/
def f31855ScgBit : Nat := 1
/-- `F31855_SCV_BIT`: MAX31855 ShortToVCC fault bit. -/
def f31855ScvBit : Nat := 2
/-- `CJ_SHIFT`: right shift that yields the internal field. -/
def cjShift : Nat := 4
/-- `CJ_MASK`: mask of the 12-bit internal field. -/
def cjMask : Nat := 0xFFF
/-- `CJ_SIGN_BIT`: sign bit of the internal field. -/
def cjSignBit : Nat := 11
/-- `TC_SHIFT`: right shift of the original raw value that yields the thermocouple field. -/
def tcShift : Nat := 18
/-- `TC_MASK`: mask of the 14-bit thermocouple field. -/
def tcMask : Nat := 0x3FFF
/-- `TC_SIGN_BIT`: sign bit of the thermocouple field. -/
def tcSignBit : Nat := 13
/-- `TC_NUM`, with `TC_DEN`: quarter degrees to tenths. -/
def tcNum : Int := 25
/-- `TC_DEN`. -/
def tcDen : Int := 10
/-- `CJ_NUM`, with `CJ_DEN`: sixteenths of a degree to hundredths. -/
def cjNum : Int := 625
/-- `CJ_DEN`. -/
def cjDen : Int := 100

end Sys2Proof.Machine
end

