-- ==== Sys2Proof/Machine/Operands.lean ====
section
/-! DEFINITION. The arithmetic primitives of 00_scope.md R10, the operand forms of DEC, and the extraction of fields and
signs from a raw frame (20_memory.md R30, 30_encoding.md R49 to R52). Arithmetic is over the unbounded integers and is
narrowed once, by `toI16` (R10, R70). -/

namespace Sys2Proof.Machine

/-- `tdiv(a, b)` for `b > 0`: division truncating toward zero, R10's two cases. For `b ≤ 0`, which
never occurs, DESIGN CHOICE, safe: log entry 9. -/
def tdiv (a b : Int) : Int :=
  if 0 ≤ a then a / b else -((-a) / b)

/-- `neg_N(v) = (2^N - v) mod 2^N` for `0 ≤ v < 2^N` (R10), the document's "(-v) & mask". For `v ≥ 2^N`,
which never occurs, DESIGN CHOICE, safe: log entry 17. -/
def negN (n v : Nat) : Nat := (2 ^ n - v) % 2 ^ n

/-- `to_i16(z)`, the 16-bit vector `z mod 2^16` (R10). For `z` outside the signed range,
which never occurs, DESIGN CHOICE, safe: log entry 8. -/
def toI16 (z : Int) : Temp := BitVec.ofInt 16 z

/-- The MAX6675 frame of an operand, `operand[15:0]` (R30). -/
def frame6675Of (operand : Operand) : Frame6675 := operand.extractLsb' 0 16

/-- The MAX31855 frame of an operand, `operand[31:0]` (R30). -/
def frame31855Of (operand : Operand) : Frame31855 := operand

/-- `mag6675 = raw >> 3` (R49, R76): no mask, so `raw[15]` counts (90_conflicts.md C1). -/
def mag6675 (raw : Frame6675) : Nat := raw.toNat >>> f6675Shift

/-- `cjf = (raw >> 4) & 0xFFF` (R50, R82). -/
def cjField (raw : Frame31855) : Nat := (raw.toNat >>> cjShift) &&& cjMask

/-- `tcf = (raw >> 18) & 0x3FFF`, of the original frame (R51, R85). -/
def tcField (raw : Frame31855) : Nat := (raw.toNat >>> tcShift) &&& tcMask

/-- What sign recovery yields (R52). -/
structure Recovered where
  negative : Bool
  magnitude : Nat
deriving DecidableEq, Repr

/-- Sign recovery of the field `f` whose sign bit is `signBit`, over `signBit + 1` bits (R52). For a number of
more bits than that, which never occurs, DESIGN CHOICE, safe: log entry 17. -/
def recoverSign (signBit f : Nat) : Recovered :=
  if f.testBit signBit then ⟨true, negN (signBit + 1) f⟩ else ⟨false, f⟩

/-- Unit conversion: the sign enters through the multiplier, the product is exact, the division truncates toward zero
(R67, R68, R83, R84, R86, R87). -/
def convert (r : Recovered) (num den : Int) : Int :=
  tdiv (r.magnitude * (if r.negative then -num else num)) den

end Sys2Proof.Machine
end

