-- ==== Sys2Proof/Machine/Flags.lean ====
section
/-! DEFINITION. The status register FAULT: its codes (30_encoding.md R56) and the fault tests of a raw frame, in the
document's priority order (R75, R81). The block has no other flag (R19). -/

namespace Sys2Proof.Machine

/-- `code(F)`: the 3-bit fault codes (R56). -/
def FaultCode.code : FaultCode → BitVec 3
  | .ok => 0#3
  | .noThermocouple => 1#3
  | .shortToGround => 2#3
  | .shortToVcc => 3#3
  | .notConfigured => 4#3

/-- The fault a MAX6675 frame reports: bit 2 alone decides (R75). -/
def faultOf6675 (raw : Frame6675) : FaultCode :=
  if raw.getLsbD f6675OpenBit then .noThermocouple else .ok

/-- The fault a MAX31855 frame reports: bits 0, 1, 2 tested in that order, the first one set decides (R81). -/
def faultOf31855 (raw : Frame31855) : FaultCode :=
  if raw.getLsbD f31855OcBit then .noThermocouple
  else if raw.getLsbD f31855ScgBit then .shortToGround
  else if raw.getLsbD f31855ScvBit then .shortToVcc
  else .ok

end Sys2Proof.Machine
end

