-- ==== Sys2Proof/Machine/Ops.lean ====
section
/-! DEFINITION. The shared operations on the registers, none of which sees the input still to come (10_state.md R22):
raising a fault (the block's whole "taking an exception", 00_scope.md R11, 60_exceptions.md R101), writing a decode's result
back (41_decode.md R65, R66), establishing the configuration (40_config.md R60), taking reset (70_reset_and_hazards.md R111),
and the output ports. Beside them, sampling the input ports. There is no return from a fault: no handler exists (R103). -/

namespace Sys2Proof.Machine

/-- What a decode function returns: the triple `(tcv, cjv, f)` (R64). -/
structure DecodeResult where
  tcv : Int
  cjv : Int
  f : FaultCode
deriving DecidableEq, Repr

/-- `raise F`: FAULT <- code(F), TC <- 0, CJ <- 0, and nothing more (R11, R101). The zeros are the spec's
decision D10 (log entry 11). -/
def raise (f : FaultCode) (r : Registers) : Registers :=
  { r with fault := f, tc := toI16 0, cj := toI16 0 }

/-- Write-back on success: the two temperatures narrowed, FAULT <- OK (R65). -/
def writeReading (tcv cjv : Int) (r : Registers) : Registers :=
  { r with tc := toI16 tcv, cj := toI16 cjv, fault := .ok }

/-- Write-back of a decode's triple: R65 when it is OK, R66 otherwise. -/
def writeback (d : DecodeResult) (r : Registers) : Registers :=
  if d.f = .ok then writeReading d.tcv d.cjv r else raise d.f r

/-- MODEL <- m, CFGD <- 1 (R60). -/
def establishConfig (m : Model) (r : Registers) : Registers :=
  { r with model := m, cfgd := true }

/-- The reset event: every register at its reset value, whatever it held (R27, R111). -/
def takeReset (_ : Registers) : Registers := Registers.reset

/-- The state whose registers are `r`; the input still to come stays. -/
def State.withRegisters (r : Registers) (s : State) : State :=
  { s with toRegisters := r }

/-- An outcome read through `f`; a stop stays the stop it is. -/
def mapNext {σ τ : Type} (f : σ → τ) : Host.Outcome σ Fault Refusal → Host.Outcome τ Fault Refusal
  | .next s => .next (f s)
  | .fault e => .fault e
  | .refused e => .refused e

/-- The input ports of a host with nothing to do: `rst = 0` and the idle command (R25, R42). -/
def idleSample : PortSample := ⟨false, 0x000000000#34⟩

/-- The sample this step reads, and the state without it; with none waiting the ports are idle.
DEDUCED, safe: log entry 2. -/
def samplePorts (s : State) : PortSample × State :=
  match s.pending with
  | [] => (idleSample, s)
  | p :: rest => (p, { s with pending := rest })

/-- The host presents `p` in the very next step, ahead of what is waiting. -/
def present (p : PortSample) (s : State) : State :=
  { s with pending := p :: s.pending }

/-- The registers under the spec's alias: `x[0] = TC`, `x[1] = CJ` (R11). -/
def Registers.x (r : Registers) (k : Fin 2) : Temp :=
  if k = 0 then r.tc else r.cj

/-- The five output ports (10_state.md R25). -/
structure OutputPorts where
  tc : BitVec 16
  cj : BitVec 16
  fault : BitVec 3
  cfgd : BitVec 1
  model : BitVec 1
deriving DecidableEq, Repr

/-- Each output port shows the value of its register (R25, R26). -/
def Registers.ports (r : Registers) : OutputPorts where
  tc := r.tc
  cj := r.cj
  fault := r.fault.code
  cfgd := BitVec.ofBool r.cfgd
  model := r.model.bit

end Sys2Proof.Machine
end

