-- ==== Sys2Proof/Machine/Configure.lean ====
section
/-! DEFINITION. The configuration command CFG (40_config.md R60). -/

namespace Sys2Proof.Machine

/-- CFG: write-once; a CFG when CFGD = 1 writes no register (R60, decision D6). `operand[31:1]` is ignored (R54). -/
def execCfg (m : Model) (_ignored : BitVec 31) (s : State) : Host.Outcome State Fault Refusal :=
  if s.cfgd then .next s else .next (s.withRegisters (establishConfig m s.toRegisters))

end Sys2Proof.Machine
end

