-- ==== Sys2Proof/Machine/Max31855.lean ====
section
/-! DEFINITION. `decode31855`, the pure decode of a MAX31855 frame (43_decode_max31855.md R80 to R92). -/

namespace Sys2Proof.Machine

/-- The cold-junction temperature in hundredths (R82 to R84). -/
def cjv31855 (raw : Frame31855) : Int :=
  convert (recoverSign cjSignBit (cjField raw)) cjNum cjDen

/-- The thermocouple temperature in tenths (R85 to R87). -/
def tcv31855 (raw : Frame31855) : Int :=
  convert (recoverSign tcSignBit (tcField raw)) tcNum tcDen

/-- R80: the fault bits first, in priority order (R81); then the two temperatures, independently (R88). -/
def decode31855 (raw : Frame31855) : DecodeResult :=
  if faultOf31855 raw = .ok then ⟨tcv31855 raw, cjv31855 raw, .ok⟩ else ⟨0, 0, faultOf31855 raw⟩

end Sys2Proof.Machine
end

