-- ==== Sys2Proof/Machine/Max6675.lean ====
section
/-! DEFINITION. `decode6675`, the pure decode of a MAX6675 frame (42_decode_max6675.md R74 to R79). -/

namespace Sys2Proof.Machine

/-- The thermocouple temperature in tenths: `tdiv(v * 25, 10)` with `v` unsigned (R77) and 13 bits wide (log entry 12). -/
def tcv6675 (raw : Frame6675) : Int :=
  tdiv (mag6675 raw * tcNum) tcDen

/-- R74: the fault test first, alone (R75); the cold-junction result is always 0 (R78). -/
def decode6675 (raw : Frame6675) : DecodeResult :=
  if faultOf6675 raw = .ok then ⟨tcv6675 raw, 0, .ok⟩ else ⟨0, 0, faultOf6675 raw⟩

end Sys2Proof.Machine
end

