-- ==== Sys2Proof/Machine/Dec.lean ====
section
/-! DEFINITION. The command DEC and the decode function it applies (41_decode.md R62 to R66). -/

namespace Sys2Proof.Machine

/-- `decode(raw, model)`, of the operand that carries the frame (R64, R30). -/
def decodeFrame (m : Model) (operand : Operand) : DecodeResult :=
  match m with
  | .max6675 => decode6675 (frame6675Of operand)
  | .max31855 => decode31855 (frame31855Of operand)

/-- DEC: the guard before any look at the frame (R63), then decode and write back (R62). Every outcome is a next state: a
fault is a value written to FAULT (R101). -/
def execDec (operand : Operand) (s : State) : Host.Outcome State Fault Refusal :=
  if s.cfgd then .next (s.withRegisters (writeback (decodeFrame s.model operand) s.toRegisters))
  else .next (s.withRegisters (raise .notConfigured s.toRegisters))

end Sys2Proof.Machine
end

