-- ==== Sys2Proof/Machine/Idle.lean ====
section
/-! DEFINITION. The commands that change nothing: NOP (40_config.md R59) and the reserved op (30_encoding.md R53). -/

namespace Sys2Proof.Machine

/-- NOP: no register is written, whatever the operand and the state (R59). -/
def execNop (_operand : Operand) (s : State) : Host.Outcome State Fault Refusal :=
  .next s

/-- The reserved op: "changes no state: it behaves as NOP, whatever its operand" (R53, decision D7). -/
def execRsvd (_operand : Operand) (s : State) : Host.Outcome State Fault Refusal :=
  .next s

end Sys2Proof.Machine
end

