-- ==== Sys2Proof/Machine/Dispatch.lean ====
section
/-! DEFINITION. One command word, one meaning (30_encoding.md R41). -/

namespace Sys2Proof.Machine

def exec (i : Instr) (s : State) : Host.Outcome State Fault Refusal :=
  match i with
  | .nop operand => Sys2Proof.Machine.execNop operand s
  | .cfg m ignored => Sys2Proof.Machine.execCfg m ignored s
  | .dec operand => Sys2Proof.Machine.execDec operand s
  | .rsvd operand => Sys2Proof.Machine.execRsvd operand s

end Sys2Proof.Machine
end

