-- ==== Sys2Proof/Machine/Input.lean ====
section
/-! DEFINITION. The spec's own step function, `step : State x Command -> State` (10_state.md R24): its state is the five
registers, and the command word with the frame in it is its input and no field of that state (R22 (1), (2)). -/

namespace Sys2Proof.Machine

/-- The step on the input `p`, from the registers to the registers: `if rst = 1` the reset state, and the command of that
step is not executed (R113); else the command's own step (R111). The command runs with no input to come in reach. -/
def stepOn (p : PortSample) (r : Registers) : Host.Outcome Registers Fault Refusal :=
  if p.rst then .next (takeReset r)
  else mapNext State.toRegisters (exec (decode p.cmd) { toRegisters := r, pending := [] })

end Sys2Proof.Machine
end

