-- ==== Sys2Proof/Machine/Step.lean ====
section
/-! DEFINITION. One step behind the host's interface, which gives `step` no input: the sample the ports hold, handed to the
spec's step function (10_state.md R24, R25). -/

namespace Sys2Proof.Machine

/-- One step: sample the input ports, then `stepOn` that sample and the registers (R25, R111). What the ports will hold
later is not the block's and stays (log entry 1). -/
def step (s : State) : Host.Outcome State Fault Refusal :=
  mapNext (fun r => (samplePorts s).2.withRegisters r) (stepOn (samplePorts s).1 s.toRegisters)

/-- The host presents the table word `w` in the very next step, with `rst = 0`. A number that is no 34-bit command word
cannot be presented and leaves the state as it is.
DESIGN CHOICE, safe: log entry 4. -/
def State.withFetchWord (s : State) (nbits w : Nat) : State :=
  if w % 2 ^ nbits < 2 ^ Config.cmdWidth then present ⟨false, BitVec.ofNat 34 (w % 2 ^ nbits)⟩ s else s

end Sys2Proof.Machine
end

