-- ==== Sys2Proof/Machine/Frame.lean ====
section
/-! DEFINITION. How the host assembles a raw frame: bit order, byte order and placement (20_memory.md R30 to R33). A
contract on the host, not behaviour of the block: no step calls these functions, because the block cannot observe how
its operand was assembled (20_memory.md section 3; log entry 7). -/

namespace Sys2Proof.Machine

/-- `readByte()`: eight bits in the order sampled; the first is bit 7, the last bit 0 (R31). -/
def readByte (bits : Vector Bool 8) : Byte :=
  bits.toList.foldl (fun acc b => (acc <<< 1) ||| (BitVec.ofBool b).setWidth 8) 0#8

/-- A MAX6675 frame from its two bytes in the order read: `raw = {b0, b1}` (R32). -/
def assemble6675 (b0 b1 : Byte) : Frame6675 :=
  (b0.setWidth 16 <<< 8) ||| b1.setWidth 16

/-- A MAX31855 frame from its four bytes in the order read: `raw = {b0, b1, b2, b3}` (R33). -/
def assemble31855 (b0 b1 b2 b3 : Byte) : Frame31855 :=
  (b0.setWidth 32 <<< 24) ||| (b1.setWidth 32 <<< 16) ||| (b2.setWidth 32 <<< 8) ||| b3.setWidth 32

/-- The operand that presents a MAX6675 frame: right-justified, zeros above (R30, R54). -/
def operandOf6675 (raw : Frame6675) : Operand := raw.setWidth 32

/-- The operand that presents a MAX31855 frame: the frame fills it (R30). -/
def operandOf31855 (raw : Frame31855) : Operand := raw

end Sys2Proof.Machine
end

