-- ==== Sys2Proof/Safety.lean ====
section
/-! DEFINITION. The terms the statements use: what a legal state is, how a run is presented, and an independent reference
for the block written at its ports, bit by bit. -/

namespace Sys2Proof.Machine

/-- The port sample of a command presented without reset (10_state.md R25). -/
def command (i : Instr) : PortSample := ⟨false, encode i⟩

/-- The host's run of the machine: `n` steps, stopping at the first stop. -/
def runSteps (n : Nat) (s : State) : Host.Outcome State Fault Refusal := Sys2Proof.core.run n s

/-- The command is a DEC. -/
def isDec : Instr → Bool
  | .nop _ => false
  | .cfg _ _ => false
  | .dec _ => true
  | .rsvd _ => false

/-- The model tag a CFG carries (R43). -/
def cfgTag : Instr → Option Model
  | .nop _ => none
  | .cfg m _ => some m
  | .dec _ => none
  | .rsvd _ => none

/-- The tag of the first CFG of a sequence (40_config.md R61). -/
def firstCfgTag (l : List Instr) : Option Model := (l.filterMap cfgTag).head?

/-- (tc, cj) is the Temperature Reading of some frame of the model `m` (60_exceptions.md R105). -/
def IsReading (m : Model) (tc cj : Temp) : Prop :=
  ∃ operand : Operand, (decodeFrame m operand).f = .ok ∧
    tc = toI16 (decodeFrame m operand).tcv ∧ cj = toI16 (decodeFrame m operand).cjv

/-- A legal state: what the block's reachable states have in common (R19, R27, R61, R79, R91, R105; 95_test_vectors.md 2.3:
the reset state is the only reachable one with CFGD = 0). -/
structure Inv (s : State) : Prop where
  /-- Unconfigured, the registers are as reset left them. -/
  unconfigured : s.cfgd = false → s.model = .max6675 ∧ s.fault = .notConfigured
  /-- A fault code never stands beside a temperature (R105). -/
  faultZero : s.fault ≠ .ok → s.tc = 0#16 ∧ s.cj = 0#16
  /-- OK stands beside the reading of a frame of the configured model (R105). -/
  okReading : s.fault = .ok → IsReading s.model s.tc s.cj
  /-- The wiring faults are the MAX31855's alone (R96, R97). -/
  wiring : s.fault = .shortToGround ∨ s.fault = .shortToVcc → s.model = .max31855

/-- The reference's DEC, on the bits the ports show: R63, R74 and R81, with the two signed fields converted in R69's
equivalent form. -/
def refDec (p : OutputPorts) (operand : BitVec 32) : OutputPorts :=
  if p.cfgd = 0#1 then { p with tc := 0#16, cj := 0#16, fault := 4#3 }
  else if p.model = 0#1 then
    if operand.getLsbD 2 then { p with tc := 0#16, cj := 0#16, fault := 1#3 }
    else { p with tc := BitVec.ofNat 16 ((operand.extractLsb' 3 13).toNat * 25 / 10), cj := 0#16, fault := 0#3 }
  else if operand.getLsbD 0 then { p with tc := 0#16, cj := 0#16, fault := 1#3 }
  else if operand.getLsbD 1 then { p with tc := 0#16, cj := 0#16, fault := 2#3 }
  else if operand.getLsbD 2 then { p with tc := 0#16, cj := 0#16, fault := 3#3 }
  else { p with
    tc := BitVec.ofInt 16 (((operand.extractLsb' 18 14).toInt * 25).tdiv 10)
    cj := BitVec.ofInt 16 (((operand.extractLsb' 4 12).toInt * 625).tdiv 100)
    fault := 0#3 }

/-- The reference's step on the five output ports (R111, R41, R53, R59, R60, R62). It shares no definition with `step`. -/
def refStep (p : OutputPorts) (x : PortSample) : OutputPorts :=
  if x.rst then { tc := 0#16, cj := 0#16, fault := 4#3, cfgd := 0#1, model := 0#1 }
  else if x.cmd.extractLsb' 32 2 = 1#2 then
    if p.cfgd = 0#1 then { p with model := x.cmd.extractLsb' 0 1, cfgd := 1#1 } else p
  else if x.cmd.extractLsb' 32 2 = 2#2 then refDec p (x.cmd.extractLsb' 0 32)
  else p

end Sys2Proof.Machine
end

