-- ==== Sys2Proof/Certificates/Slice0/Obligations.lean ====
section
/-! DEFINITION. The statements about the model, each from the spec's rules its docstring names. -/

open Sys2Proof Sys2Proof.Machine

-- Reset, the step and the ports

/-- R27: every register after reset, as field and as port shows it. -/
def Obligations.ResetGivesTheSpecifiedRegisters : Prop :=
  State.reset.cfgd = false ∧ State.reset.model = .max6675 ∧ State.reset.tc = 0x0000#16 ∧
  State.reset.cj = 0x0000#16 ∧ State.reset.fault = .notConfigured ∧
  State.reset.ports = { tc := 0x0000#16, cj := 0x0000#16, fault := 4#3, cfgd := 0#1, model := 0#1 }

/-- R113 with R111's first branch and R27's values: in a step with `rst = 1` every register takes its reset value, whatever
the word on `cmd` and whatever the state. That the samples still to come stay (`pending := rest`) is no rule of the spec but
the model's choice, log entry 1. -/
def Obligations.ResetOutranksTheCommand : Prop :=
  ∀ (s : State) (w : Command) (rest : List PortSample), s.pending = ⟨true, w⟩ :: rest →
    step s = .next { cfgd := false, model := .max6675, tc := 0x0000#16, cj := 0x0000#16,
                     fault := .notConfigured, pending := rest }

/-- R111's second branch with R24 and R41: with `rst = 0` the step is exactly exec of the command the word on `cmd`
decodes to, in the state without the sample read; so presenting the word of `i` runs `i`. The list of samples is the
model's (log entry 1). -/
def Obligations.StepRunsTheDecodedCommand : Prop :=
  (∀ (s : State) (w : Command) (rest : List PortSample), s.pending = ⟨false, w⟩ :: rest →
    step s = exec (decode w) { s with pending := rest }) ∧
  (∀ (s : State) (i : Instr) (rest : List PortSample), s.pending = ⟨false, encode i⟩ :: rest →
    step s = exec i { s with pending := rest })

/-- The model's reading of idle ports (log entry 2): with no sample waiting, a step leaves the whole state as it is. -/
def Obligations.IdlePortsChangeNothing : Prop :=
  ∀ s : State, s.pending = [] → step s = .next s

/-- The host's way to present a table word (log entry 4): a number that decodes runs next, and exactly once. -/
def Obligations.PresentedTableWordRunsNext : Prop :=
  ∀ (s : State) (nbits w : Nat) (i : Instr), decodeTableWord nbits w = some i →
    step (s.withFetchWord nbits w) = exec i s

/-- R56 and R45: the numbers of the fault codes and of the model tags, 5 to 7 being none's; the tag has the same code in
`operand[0]` of CFG, in MODEL and on the port. -/
def Obligations.FaultCodesAndModelTagsHaveTheirNumbers : Prop :=
  FaultCode.ok.code = 0#3 ∧ FaultCode.noThermocouple.code = 1#3 ∧ FaultCode.shortToGround.code = 2#3 ∧
  FaultCode.shortToVcc.code = 3#3 ∧ FaultCode.notConfigured.code = 4#3 ∧
  (∀ f : FaultCode, f.code ≠ 5#3 ∧ f.code ≠ 6#3 ∧ f.code ≠ 7#3) ∧
  (∀ s : State, s.ports.fault = s.fault.code) ∧
  (∀ s : State, (s.model = .max6675 → s.ports.model = 0#1) ∧ (s.model = .max31855 → s.ports.model = 1#1)) ∧
  (∀ (m : Model) (ignored : BitVec 31), (m = .max6675 → (encode (.cfg m ignored)).getLsbD 0 = false) ∧
    (m = .max31855 → (encode (.cfg m ignored)).getLsbD 0 = true))

/-- R25 and R26: each output port shows the value of its register; `x[0]` and `x[1]` are TC and CJ (R11, R17, R18). -/
def Obligations.OutputPortsShowTheRegisters : Prop :=
  ∀ s : State, s.ports.tc = s.tc ∧ s.ports.cj = s.cj ∧ s.ports.fault = s.fault.code ∧
    (s.ports.cfgd = 1#1 ↔ s.cfgd = true) ∧ (s.ports.model = 1#1 ↔ s.model = .max31855) ∧
    s.x 0 = s.tc ∧ s.x 1 = s.cj

-- Encoding

/-- R41 to R45, R53: every command, every bit of its operand kept. That a command has ignored bits to keep is the model's
choice, log entry 6. -/
def Obligations.DecodeOfEncodeIsTheCommand : Prop :=
  ∀ i : Instr, decode (encode i) = i

/-- R41, R24: every one of the 2^34 words is the word of the command it decodes to. This rests on the model's choice to keep
ignored bits in `Instr` (log entry 6); no rule asks for it, and a decoder may drop them. -/
def Obligations.EncodeOfDecodeIsTheWord : Prop :=
  ∀ w : Command, encode (decode w) = w

/-- Words written out from R41 to R45, R53 and R57: op in bits 33:32, operand in bits 31:0 (R41). That the NOP, the CFG and
the reserved op decoded here keep the operand bits which R42, R43 and R53 ignore is the model's choice, log entry 6. -/
def Obligations.SpecWordsDecodeAsWritten : Prop :=
  decode 0x000000000#34 = .nop 0#32 ∧
  decode 0x0DEADBEEF#34 = .nop 0xDEADBEEF#32 ∧
  decode 0x100000000#34 = .cfg .max6675 0#31 ∧
  decode 0x100000001#34 = .cfg .max31855 0#31 ∧
  decode 0x1FFFFFFFE#34 = .cfg .max6675 0x7FFFFFFF#31 ∧
  decode 0x20C9001F0#34 = .dec 0x0C9001F0#32 ∧
  decode 0x3FFFFFFFF#34 = .rsvd 0xFFFFFFFF#32

/-- R41: every command word matches exactly one row of the opcode table, the row of the command it decodes to. -/
def Obligations.EveryWordMatchesExactlyItsTableRow : Prop :=
  ∀ w : Command, ∃ r ∈ opcodeTable, w &&& r.mask = r.pattern ∧ r.mnemonic = (decode w).mnemonic ∧
    ∀ r' ∈ opcodeTable, w &&& r'.mask = r'.pattern → r' = r

/-- R57, R53, R54: the commands an assembler line stands for are exactly those with every ignored bit zero that are not
the reserved op. `wellFormed` and `AsmLine` are the model's way to say both sides (log entries 6 and 16). -/
def Obligations.AssemblerLinesAreTheWellFormedCommands : Prop :=
  ∀ i : Instr, i.wellFormed = true ↔ ∃ line : AsmLine, line.assemble = i

/-- R58: each pseudo-instruction is its expansion. -/
def Obligations.PseudoInstructionsExpand : Prop :=
  (∀ m, (AsmLine.init m).assemble = (AsmLine.cfg m).assemble) ∧
  (∀ frame, (AsmLine.read frame).assemble = (AsmLine.dec frame).assemble) ∧
  (∀ frame : BitVec 16, (AsmLine.dec16 frame).assemble = (AsmLine.dec (BitVec.ofNat 32 frame.toNat)).assemble)

-- What each command does, and that it completes

/-- R59 and R53: NOP and the reserved op answer the same state, in every state and with every operand, and any number of
them between two other commands changes no register. One command a step is R24's; that a run takes their samples off a list
(`pending := rest`) is the model's choice, log entry 1. -/
def Obligations.NopAndReservedChangeNothing : Prop :=
  (∀ (operand : Operand) (s : State), exec (.nop operand) s = .next s ∧ exec (.rsvd operand) s = .next s) ∧
  (∀ (l : List Instr) (rest : List PortSample) (s : State),
    (∀ i ∈ l, (∃ o, i = .nop o) ∨ (∃ o, i = .rsvd o)) →
    runSteps l.length { s with pending := l.map command ++ rest } = .next { s with pending := rest })

/-- R60: CFG records the model when the block is unconfigured and writes no register when it is configured; its ignored
bits never matter. -/
def Obligations.CfgIsWriteOnce : Prop :=
  ∀ (m : Model) (ignored : BitVec 31) (s : State),
    (s.cfgd = false → exec (.cfg m ignored) s = .next { s with model := m, cfgd := true }) ∧
    (s.cfgd = true → exec (.cfg m ignored) s = .next s)

/-- R63: a DEC before configuration reports NotConfigured with zeros, whatever the operand, and a later CFG then DEC
works as in any configured state. -/
def Obligations.DecBeforeConfigurationReportsNotConfigured : Prop :=
  ∀ (operand : Operand) (s : State), s.cfgd = false →
    exec (.dec operand) s = .next { s with fault := .notConfigured, tc := 0x0000#16, cj := 0x0000#16 } ∧
    ∀ (m : Model) (ignored : BitVec 31) (frame : Operand) (t u : State), exec (.dec operand) s = .next t →
      exec (.cfg m ignored) t = .next u →
      exec (.dec frame) u = exec (.dec frame) { s with cfgd := true, model := m }

/-- R74: a DEC under MAX6675, on the operand's own bits: the fault path when and only when bit 2 is set; otherwise
`tdiv(raw[15:3] * 25, 10)`, never negative, with CJ zero. -/
def Obligations.DecOfAMax6675Frame : Prop :=
  ∀ (operand : Operand) (s : State), s.cfgd = true → s.model = .max6675 →
    (operand.getLsbD 2 = true →
      exec (.dec operand) s = .next { s with tc := 0#16, cj := 0#16, fault := .noThermocouple }) ∧
    (operand.getLsbD 2 = false →
      exec (.dec operand) s = .next { s with
        tc := BitVec.ofInt 16 ((((operand.extractLsb' 3 13).toNat : Int) * 25).tdiv 10)
        cj := 0#16
        fault := .ok } ∧
      0 ≤ (BitVec.ofInt 16 ((((operand.extractLsb' 3 13).toNat : Int) * 25).tdiv 10)).toInt)

/-- R81: the three fault bits of a MAX31855 frame, as the table over `raw[2:0]`; a fault writes its code and zeros and
nothing else, and the other 29 bits have no effect; without one the code is OK. -/
def Obligations.Max31855FaultPriority : Prop :=
  ∀ (operand : Operand) (s : State), s.cfgd = true → s.model = .max31855 →
    (operand.extractLsb' 0 3 ∈ [0b001#3, 0b011#3, 0b101#3, 0b111#3] →
      exec (.dec operand) s = .next { s with tc := 0#16, cj := 0#16, fault := .noThermocouple }) ∧
    (operand.extractLsb' 0 3 ∈ [0b010#3, 0b110#3] →
      exec (.dec operand) s = .next { s with tc := 0#16, cj := 0#16, fault := .shortToGround }) ∧
    (operand.extractLsb' 0 3 = 0b100#3 →
      exec (.dec operand) s = .next { s with tc := 0#16, cj := 0#16, fault := .shortToVcc }) ∧
    (operand.extractLsb' 0 3 = 0b000#3 →
      ∃ t : State, exec (.dec operand) s = .next t ∧ t.fault = .ok)

/-- R82, R83, R85 and R86 with the positive paths of R84 and R87: a fault-free MAX31855 frame, by the document's own
procedure on the fields `raw[15:4]` and `raw[31:18]`. -/
def Obligations.DecOfAFaultFreeMax31855Frame : Prop :=
  ∀ (operand : Operand) (s : State), s.cfgd = true → s.model = .max31855 → operand.extractLsb' 0 3 = 0b000#3 →
    ∀ cjf tcf : Nat, cjf = (operand.extractLsb' 4 12).toNat → tcf = (operand.extractLsb' 18 14).toNat →
    exec (.dec operand) s = .next { s with
      cj := BitVec.ofInt 16 (if cjf.testBit 11 then (((4096 - cjf : Nat) : Int) * -625).tdiv 100
                             else ((cjf : Int) * 625).tdiv 100)
      tc := BitVec.ofInt 16 (if tcf.testBit 13 then (((16384 - tcf : Nat) : Int) * -25).tdiv 10
                             else ((tcf : Int) * 25).tdiv 10)
      fault := .ok }

/-- R93 to R97 and R100: which fault a DEC reports, by cause; and no other command raises one. -/
def Obligations.EachFaultHasExactlyItsCause : Prop :=
  (∀ (operand : Operand) (s : State), ∃ t : State, exec (.dec operand) s = .next t ∧
    (t.fault = .notConfigured ↔ s.cfgd = false) ∧
    (t.fault = .noThermocouple ↔ s.cfgd = true ∧
      ((s.model = .max6675 ∧ operand.getLsbD 2 = true) ∨ (s.model = .max31855 ∧ operand.getLsbD 0 = true))) ∧
    (t.fault = .shortToGround ↔ s.cfgd = true ∧ s.model = .max31855 ∧
      operand.getLsbD 0 = false ∧ operand.getLsbD 1 = true) ∧
    (t.fault = .shortToVcc ↔ s.cfgd = true ∧ s.model = .max31855 ∧
      operand.getLsbD 0 = false ∧ operand.getLsbD 1 = false ∧ operand.getLsbD 2 = true)) ∧
  (∀ (i : Instr) (s t : State), isDec i = false → exec i s = .next t → t.fault = s.fault)

/-- R102 with R66: a faulting DEC leaves exactly the state before it with FAULT, TC and CJ replaced, the temperatures by
zeros (decision D10). -/
def Obligations.AFaultIsPrecise : Prop :=
  ∀ (operand : Operand) (s t : State), exec (.dec operand) s = .next t → t.fault ≠ .ok →
    t = { s with fault := t.fault, tc := 0x0000#16, cj := 0x0000#16 }

/-- The frame of each command: DEC changes TC, CJ and FAULT alone (R62, R73); CFG changes CFGD and MODEL alone, and
nothing when CFGD is 1 (R60); NOP and the reserved op change nothing (R59, R53). No command touches the coming samples. -/
def Obligations.FramesOfTheCommands : Prop :=
  (∀ (operand : Operand) (s t : State), exec (.dec operand) s = .next t →
    t.cfgd = s.cfgd ∧ t.model = s.model ∧ t.pending = s.pending) ∧
  (∀ (m : Model) (ignored : BitVec 31) (s t : State), exec (.cfg m ignored) s = .next t →
    t.tc = s.tc ∧ t.cj = s.cj ∧ t.fault = s.fault ∧ t.pending = s.pending ∧ (s.cfgd = true → t = s)) ∧
  (∀ (operand : Operand) (s t : State), exec (.nop operand) s = .next t ∨ exec (.rsvd operand) s = .next t → t = s)

-- Ignored bits, purity, independence

/-- R54: two command words that differ only in ignored operand bits have the same effect. -/
def Obligations.IgnoredOperandBitsHaveNoEffect : Prop :=
  ∀ (w v : Command) (s : State), w.extractLsb' 32 2 = v.extractLsb' 32 2 →
    (w.extractLsb' 32 2 = 1#2 → w.getLsbD 0 = v.getLsbD 0 → exec (decode w) s = exec (decode v) s) ∧
    (w.extractLsb' 32 2 = 0#2 → exec (decode w) s = exec (decode v) s) ∧
    (w.extractLsb' 32 2 = 2#2 → s.cfgd = true → s.model = .max6675 → w.extractLsb' 0 16 = v.extractLsb' 0 16 →
      exec (decode w) s = exec (decode v) s) ∧
    (w.extractLsb' 32 2 = 2#2 → s.cfgd = false → exec (decode w) s = exec (decode v) s)

/-- R55 and R89: a frame's bits that no rule reads have no effect: `raw[1:0]` of a MAX6675 frame; `raw[17:16]` and
`raw[3]` of a MAX31855 frame. -/
def Obligations.IgnoredFrameBitsHaveNoEffect : Prop :=
  ∀ (a b : Operand) (s : State), s.cfgd = true →
    (s.model = .max6675 → a.extractLsb' 2 14 = b.extractLsb' 2 14 → exec (.dec a) s = exec (.dec b) s) ∧
    (s.model = .max31855 → a.extractLsb' 18 14 = b.extractLsb' 18 14 → a.extractLsb' 4 12 = b.extractLsb' 4 12 →
      a.extractLsb' 0 3 = b.extractLsb' 0 3 → exec (.dec a) s = exec (.dec b) s)

/-- R73: what a DEC leaves in TC, CJ and FAULT is a function of CFGD, MODEL and the operand alone, and a DEC changes
nothing but those three registers. -/
def Obligations.DecIsAPureFunctionOfConfigurationAndOperand : Prop :=
  ∀ (operand : Operand) (s₁ s₂ t₁ t₂ : State), s₁.cfgd = s₂.cfgd → s₁.model = s₂.model →
    exec (.dec operand) s₁ = .next t₁ → exec (.dec operand) s₂ = .next t₂ →
    t₁.tc = t₂.tc ∧ t₁.cj = t₂.cj ∧ t₁.fault = t₂.fault ∧
    t₁ = { s₁ with tc := t₁.tc, cj := t₁.cj, fault := t₁.fault }

/-- R35, R73: presenting the same DEC again changes nothing more. -/
def Obligations.DecAgainChangesNothingMore : Prop :=
  ∀ (operand : Operand) (s : State), ∃ t : State, exec (.dec operand) s = .next t ∧ exec (.dec operand) t = .next t

/-- R88: of two fault-free MAX31855 frames, equal bits 15:4 give equal CJ and equal bits 31:18 give equal TC, whatever
the rest of the frames. -/
def Obligations.TheTwoTemperaturesAreIndependent : Prop :=
  ∀ (a b : Operand) (s t u : State), s.cfgd = true → s.model = .max31855 →
    a.extractLsb' 0 3 = 0b000#3 → b.extractLsb' 0 3 = 0b000#3 →
    exec (.dec a) s = .next t → exec (.dec b) s = .next u →
    (a.extractLsb' 4 12 = b.extractLsb' 4 12 → t.cj = u.cj) ∧
    (a.extractLsb' 18 14 = b.extractLsb' 18 14 → t.tc = u.tc)

/-- R87: for equal magnitudes the two models give equal thermocouple results. -/
def Obligations.EqualMagnitudesGiveEqualThermocoupleResults : Prop :=
  ∀ (a b : Operand) (s t : State), s.cfgd = true → s.model = .max6675 → t.cfgd = true → t.model = .max31855 →
    a.getLsbD 2 = false → b.extractLsb' 0 3 = 0b000#3 → (a.extractLsb' 3 13).toNat = (b.extractLsb' 18 14).toNat →
    ∃ s' t' : State, exec (.dec a) s = .next s' ∧ exec (.dec b) t = .next t' ∧ s'.tc = t'.tc

/-- R118 with R30: under MAX6675 a 32-bit frame decodes from its low 16 bits; under MAX31855 a 16-bit frame decodes as a
frame whose upper half is zero, so without a fault its thermocouple result is zero. -/
def Obligations.AFrameOfTheOtherModelDecodesByItsBits : Prop :=
  ∀ (s : State), s.cfgd = true →
    (s.model = .max6675 → ∀ raw : Frame31855,
      exec (.dec (operandOf31855 raw)) s = exec (.dec (operandOf6675 (raw.extractLsb' 0 16))) s) ∧
    (s.model = .max31855 → ∀ raw : Frame6675, ∃ t : State, exec (.dec (operandOf6675 raw)) s = .next t ∧ t.tc = 0#16)

-- Outcomes, boundaries, ranges

/-- R79: a DEC under MAX6675 ends in exactly one of two ways; the two stuck-line frames. -/
def Obligations.OutcomesUnderMax6675 : Prop :=
  ∀ (operand : Operand) (s t : State), s.cfgd = true → s.model = .max6675 → exec (.dec operand) s = .next t →
    ((t.fault.code = 1#3 ∧ t.tc = 0#16 ∧ t.cj = 0#16) ∨
     (t.fault.code = 0#3 ∧ t.tc = BitVec.ofInt 16 ((((operand.extractLsb' 0 16).toNat >>> 3 : Nat) : Int) * 25 |>.tdiv 10) ∧
      t.cj = 0#16 ∧ 0 ≤ t.tc.toInt ∧ t.tc.toInt ≤ 20477)) ∧
    (operand.extractLsb' 0 16 = 0x0000#16 → t.fault = .ok ∧ t.tc = 0#16) ∧
    (operand.extractLsb' 0 16 = 0xFFFF#16 → t.fault = .noThermocouple)

/-- R91: a DEC under MAX31855 ends in exactly one of four ways. -/
def Obligations.OutcomesUnderMax31855 : Prop :=
  ∀ (operand : Operand) (s t : State), s.cfgd = true → s.model = .max31855 → exec (.dec operand) s = .next t →
    ((t.fault.code = 1#3 ∨ t.fault.code = 2#3 ∨ t.fault.code = 3#3) ∧ t.tc = 0#16 ∧ t.cj = 0#16) ∨
    (t.fault.code = 0#3 ∧ -20480 ≤ t.tc.toInt ∧ t.tc.toInt ≤ 20477 ∧ -12800 ≤ t.cj.toInt ∧ t.cj.toInt ≤ 12793)

/-- R90: the boundary fields of a MAX31855 frame. -/
def Obligations.BoundaryFieldsDoNotWrap : Prop :=
  ∀ s : State, s.cfgd = true → s.model = .max31855 →
    exec (.dec 0x0000FFF0#32) s = .next { s with cj := 0xFFFA#16, tc := 0#16, fault := .ok } ∧
    exec (.dec 0x00008000#32) s = .next { s with cj := 0xCE00#16, tc := 0#16, fault := .ok } ∧
    exec (.dec 0x00007FF0#32) s = .next { s with cj := 0x31F9#16, tc := 0#16, fault := .ok } ∧
    exec (.dec 0x00000000#32) s = .next { s with cj := 0#16, tc := 0#16, fault := .ok } ∧
    exec (.dec 0xFFFC0000#32) s = .next { s with cj := 0#16, tc := 0xFFFE#16, fault := .ok } ∧
    exec (.dec 0x80000000#32) s = .next { s with cj := 0#16, tc := 0xB000#16, fault := .ok } ∧
    exec (.dec 0x7FFC0000#32) s = .next { s with cj := 0#16, tc := 0x4FFD#16, fault := .ok }

/-- R92: the degenerate frames of a MAX31855. -/
def Obligations.DegenerateMax31855Frames : Prop :=
  ∀ s : State, s.cfgd = true → s.model = .max31855 →
    exec (.dec 0x00000000#32) s = .next { s with tc := 0#16, cj := 0#16, fault := .ok } ∧
    exec (.dec 0xFFFFFFFF#32) s = .next { s with tc := 0#16, cj := 0#16, fault := .noThermocouple }

/-- R71 with R65: the ranges of the results, where their bounds are attained, and that narrowing never wraps. -/
def Obligations.ResultRangesAndExactNarrowing : Prop :=
  (∀ raw : Frame6675, 0 ≤ tcv6675 raw ∧ tcv6675 raw ≤ 20477 ∧ (toI16 (tcv6675 raw)).toInt = tcv6675 raw ∧
    (raw.getLsbD 15 = false → tcv6675 raw ≤ 10237) ∧ (mag6675 raw = 0 → tcv6675 raw = 0) ∧
    (mag6675 raw = 8191 → tcv6675 raw = 20477) ∧ (mag6675 raw = 4095 → tcv6675 raw = 10237)) ∧
  (∀ raw : Frame31855, -20480 ≤ tcv31855 raw ∧ tcv31855 raw ≤ 20477 ∧ -12800 ≤ cjv31855 raw ∧ cjv31855 raw ≤ 12793 ∧
    (toI16 (tcv31855 raw)).toInt = tcv31855 raw ∧ (toI16 (cjv31855 raw)).toInt = cjv31855 raw ∧
    (tcField raw = 0x2000 → tcv31855 raw = -20480) ∧ (tcField raw = 0x1FFF → tcv31855 raw = 20477) ∧
    (cjField raw = 0x800 → cjv31855 raw = -12800) ∧ (cjField raw = 0x7FF → cjv31855 raw = 12793))

-- Arithmetic

/-- R10 and R67, R68: `tdiv` is truncating division: it is floor division for a non-negative dividend, at least the floor
quotient for a negative one, and symmetric about zero. -/
def Obligations.DivisionTruncatesTowardZero : Prop :=
  ∀ a b : Int, 0 < b →
    tdiv a b = a.tdiv b ∧ (0 ≤ a → tdiv a b = a / b) ∧ (a < 0 → a / b ≤ tdiv a b ∧ tdiv a b ≤ 0) ∧
    tdiv (-a) b = -(tdiv a b)

/-- R52, for a field of any width: the sign bit decides; a negative field's magnitude is its two's-complement negation,
between 1 and 2^(N-1), and the most negative field is its own negation. -/
def Obligations.SignRecoveryYieldsTheAbsoluteValue : Prop :=
  ∀ n f : Nat, f < 2 ^ (n + 1) →
    (2 ^ n ≤ f → (recoverSign n f).negative = true ∧
      ((recoverSign n f).magnitude : Int) = -((f : Int) - 2 ^ (n + 1)) ∧
      1 ≤ (recoverSign n f).magnitude ∧ (recoverSign n f).magnitude ≤ 2 ^ n) ∧
    (f < 2 ^ n → recoverSign n f = ⟨false, f⟩) ∧
    recoverSign n (2 ^ n) = ⟨true, 2 ^ n⟩

/-- R69: the document's per-path procedure equals sign extension followed by one truncating division, and differs from
floor division exactly on the negative fields that are no multiple of 4 (internal) or 2 (thermocouple). -/
def Obligations.ThePathsEqualTheSignedForm : Prop :=
  ∀ raw : Frame31855,
    cjv31855 raw = ((raw.extractLsb' 4 12).toInt * 625).tdiv 100 ∧
    tcv31855 raw = ((raw.extractLsb' 18 14).toInt * 25).tdiv 10 ∧
    (cjv31855 raw ≠ ((raw.extractLsb' 4 12).toInt * 625) / 100 ↔ raw.getLsbD 15 = true ∧ cjField raw % 4 ≠ 0) ∧
    (tcv31855 raw ≠ ((raw.extractLsb' 18 14).toInt * 25) / 10 ↔ raw.getLsbD 31 = true ∧ tcField raw % 2 ≠ 0)

/-- R70 with R68: the largest products, so a signed intermediate of 19 and of 22 bits holds them. -/
def Obligations.ProductsFitTheStatedWidths : Prop :=
  (∀ raw : Frame6675, mag6675 raw * 25 ≤ 204775) ∧
  (∀ raw : Frame31855, (recoverSign tcSignBit (tcField raw)).magnitude * 25 ≤ 204800 ∧
    (recoverSign cjSignBit (cjField raw)).magnitude * 625 ≤ 1280000) ∧
  204800 < 2 ^ 18 ∧ 1280000 < 2 ^ 21

/-- R72: the inexact part is dropped toward zero and is less than one unit of the result; the result is exact just for
multiples of 2 (thermocouple) and 4 (internal); a non-negative thermocouple result ends in 0, 2, 5 or 7. -/
def Obligations.TheInexactPartIsDroppedTowardZero : Prop :=
  ∀ raw : Frame31855, ∀ z c : Int, z = (raw.extractLsb' 18 14).toInt → c = (raw.extractLsb' 4 12).toInt →
    (0 ≤ z → 0 ≤ z * 25 - tcv31855 raw * 10 ∧ z * 25 - tcv31855 raw * 10 ≤ 5) ∧
    (z ≤ 0 → -5 ≤ z * 25 - tcv31855 raw * 10 ∧ z * 25 - tcv31855 raw * 10 ≤ 0) ∧
    (0 ≤ c → 0 ≤ c * 625 - cjv31855 raw * 100 ∧ c * 625 - cjv31855 raw * 100 ≤ 75) ∧
    (c ≤ 0 → -75 ≤ c * 625 - cjv31855 raw * 100 ∧ c * 625 - cjv31855 raw * 100 ≤ 0) ∧
    (tcv31855 raw * 10 = z * 25 ↔ 2 ∣ z) ∧ (cjv31855 raw * 100 = c * 625 ↔ 4 ∣ c) ∧
    (0 ≤ tcv31855 raw → tcv31855 raw % 10 ∈ [0, 2, 5, 7])

-- Frame assembly, the host's contract

/-- R32 and R33: the first byte read is the most significant. -/
def Obligations.BytesAssembleFirstMostSignificant : Prop :=
  (∀ b0 b1 : Byte, (assemble6675 b0 b1).toNat = b0.toNat * 256 + b1.toNat) ∧
  (∀ b0 b1 b2 b3 : Byte, (assemble31855 b0 b1 b2 b3).toNat =
    b0.toNat * 2 ^ 24 + b1.toNat * 2 ^ 16 + b2.toNat * 2 ^ 8 + b3.toNat)

/-- R31 with R32 and R33: the k-th bit sampled in a transaction is `raw[W - 1 - k]`. -/
def Obligations.TheKthSampledBitIsRawBitFromTheTop : Prop :=
  ∀ a b c d : Vector Bool 8,
    (∀ k, k < 16 → (assemble6675 (readByte a) (readByte b)).getLsbD (Config.raw6675Width - 1 - k) =
      (a.toList ++ b.toList)[k]!) ∧
    (∀ k, k < 32 → (assemble31855 (readByte a) (readByte b) (readByte c) (readByte d)).getLsbD
      (Config.raw31855Width - 1 - k) = (a.toList ++ b.toList ++ c.toList ++ d.toList)[k]!)

-- Invariants and runs

/-- The reset state is legal (R27, R105). -/
def Obligations.ResetStateIsLegal : Prop :=
  Inv State.reset

/-- R19, R27, R61, R105: from every legal state, reachable or not, and whatever the ports hold, a step gives a legal
state. -/
def Obligations.EveryStepKeepsTheStateLegal : Prop :=
  ∀ s t : State, Inv s → step s = .next t → Inv t

/-- R105, R71, R78, R19: what a legal state shows: either FAULT is OK and the temperatures lie in the configured model's
range, or the code is one of 1 to 4 and both are zero; CJ is zero under MAX6675; OK and the wiring faults need a
configuration. -/
def Obligations.ALegalStateShowsAReadingOrAFault : Prop :=
  ∀ s : State, Inv s →
    ((s.ports.fault = 0#3 ∧ s.cfgd = true ∧ s.tc.toInt ≤ 20477 ∧
        (s.model = .max6675 → 0 ≤ s.tc.toInt) ∧ -20480 ≤ s.tc.toInt ∧
        -12800 ≤ s.cj.toInt ∧ s.cj.toInt ≤ 12793) ∨
      (s.ports.fault ∈ [1#3, 2#3, 3#3, 4#3] ∧ s.tc = 0#16 ∧ s.cj = 0#16)) ∧
    (s.model = .max6675 → s.cj = 0#16) ∧
    (s.cfgd = false → s.ports = State.reset.ports)

/-- R24 and R123: no run of any length, from any state and with any port samples, stops, waits or refuses; each step reads
one sample. The list of samples (`t.pending = s.pending.drop n`) is the model's choice, log entry 1, and so is the reading
of the ports past its end, log entry 2. -/
def Obligations.EveryRunCompletes : Prop :=
  ∀ (n : Nat) (s : State), ∃ t : State, runSteps n s = .next t ∧ t.pending = s.pending.drop n

/-- R37 with R24 and R111: what the ports show after a run over the waiting samples is the left fold over them of the
reference step, which is written on the ports' bits and shares no definition with the machine. That the samples are a list
the run uses up (`t.pending = []`) is the model's choice, log entry 1. -/
def Obligations.ARunIsTheFoldOfTheReferenceStep : Prop :=
  ∀ s : State, ∃ t : State, runSteps s.pending.length s = .next t ∧
    t.ports = s.pending.foldl refStep s.ports ∧ t.pending = []

/-- R61: without a reset, CFGD never goes from 1 to 0; MODEL changes at most once, by the first CFG of an unconfigured
block, and is that CFG's tag from then on. The sequence is presented as the model's list of samples (log entry 1). -/
def Obligations.TheFirstCfgDecidesTheModelUntilReset : Prop :=
  ∀ (l : List Instr) (s t : State), s.pending = l.map command →
    runSteps l.length s = .next t →
    (s.cfgd = true → t.cfgd = true ∧ t.model = s.model) ∧
    (s.cfgd = false → (t.cfgd = true ↔ ∃ m, firstCfgTag l = some m) ∧ t.model = (firstCfgTag l).getD s.model)

/-- R119 with R103: after a run the result registers hold the latest DEC's result, decoded under the configuration that
stood when it ran; nothing that came before it and no later command other than a DEC changes them. The sequence is
presented as the model's list of samples (log entry 1). -/
def Obligations.TheResultIsTheLatestDecs : Prop :=
  ∀ (l₁ l₂ : List Instr) (operand : Operand) (s : State), (∀ i ∈ l₂, isDec i = false) →
    s.pending = (l₁ ++ Instr.dec operand :: l₂).map command →
    ∃ u v t : State, runSteps l₁.length s = .next u ∧ exec (.dec operand) u = .next v ∧
      runSteps (l₁ ++ Instr.dec operand :: l₂).length s = .next t ∧
      t.tc = v.tc ∧ t.cj = v.cj ∧ t.fault = v.fault

/-- R114 and R115: reset, then a CFG before any other CFG, then any commands, then a DEC: from every state before, the
result is the pure decode of that DEC's operand under that CFG's model, and never NotConfigured. The sequence is presented
as the model's list of samples (log entry 1). -/
def Obligations.BootInTheRequiredOrderDecodes : Prop :=
  ∀ (s : State) (w : Command) (l₁ l₂ : List Instr) (m : Model) (ignored : BitVec 31) (operand : Operand),
    (∀ i ∈ l₁, cfgTag i = none) →
    s.pending = ⟨true, w⟩ :: (l₁ ++ Instr.cfg m ignored :: l₂ ++ [Instr.dec operand]).map command →
    ∃ t : State, runSteps s.pending.length s = .next t ∧ t.cfgd = true ∧ t.model = m ∧
      t.fault = (decodeFrame m operand).f ∧ t.fault ≠ .notConfigured ∧
      t.tc = toI16 (decodeFrame m operand).tcv ∧ t.cj = toI16 (decodeFrame m operand).cjv

/-- R61's first sentence as a property of one step, from every state, reachable or not: without a reset the step goes on, a
configured block stays configured under the same model, and MODEL changes only in a step in which CFGD goes from 0 to 1. -/
def Obligations.WithoutResetAConfiguredBlockKeepsItsModel : Prop :=
  ∀ s : State, (samplePorts s).1.rst = false → ∃ t : State, step s = .next t ∧
    (s.cfgd = true → t.cfgd = true ∧ t.model = s.model) ∧
    (t.model ≠ s.model → s.cfgd = false ∧ t.cfgd = true)

/-- R24 with R22 (1), (2) and R111: the step is a total function of the five registers and the input, which is the reset
request and the command word: there is one such function, it is `stepOn`'s answer from all registers on every input, and a
step of the machine is that function on the sample presented. The input still to come, which R22 counts as no state, is the
model's list (log entry 1): the function has no access to it, and the step leaves the rest of it. -/
def Obligations.TheStepIsAFunctionOfRegistersAndInput : Prop :=
  ∃ next : Registers → PortSample → Registers,
    (∀ (r : Registers) (p : PortSample), stepOn p r = .next (next r p)) ∧
    (∀ (s : State) (p : PortSample) (rest : List PortSample), s.pending = p :: rest →
      step s = .next { toRegisters := next s.toRegisters p, pending := rest })
end

