-- ==== Sys2Proof/Laws/State.lean ====
section
/-! SUPPORT. One lemma per field per update of the registers and of the state, so that no proof unfolds a record update. -/

namespace Sys2Proof.Machine

@[simp] theorem reset_cfgd : Registers.reset.cfgd = false := rfl
@[simp] theorem reset_model : Registers.reset.model = .max6675 := rfl
@[simp] theorem reset_tc : Registers.reset.tc = 0#16 := rfl
@[simp] theorem reset_cj : Registers.reset.cj = 0#16 := rfl
@[simp] theorem reset_fault : Registers.reset.fault = .notConfigured := rfl
@[simp] theorem reset_toRegisters : State.reset.toRegisters = Registers.reset := rfl
@[simp] theorem reset_pending : State.reset.pending = [] := rfl
@[simp] theorem takeReset_eq (r : Registers) : takeReset r = Registers.reset := rfl

section Raise
variable (f : FaultCode) (r : Registers)
@[simp] theorem raise_cfgd : (raise f r).cfgd = r.cfgd := rfl
@[simp] theorem raise_model : (raise f r).model = r.model := rfl
@[simp] theorem raise_tc : (raise f r).tc = 0#16 := rfl
@[simp] theorem raise_cj : (raise f r).cj = 0#16 := rfl
@[simp] theorem raise_fault : (raise f r).fault = f := rfl
end Raise

section WriteReading
variable (a b : Int) (r : Registers)
@[simp] theorem writeReading_cfgd : (writeReading a b r).cfgd = r.cfgd := rfl
@[simp] theorem writeReading_model : (writeReading a b r).model = r.model := rfl
@[simp] theorem writeReading_tc : (writeReading a b r).tc = toI16 a := rfl
@[simp] theorem writeReading_cj : (writeReading a b r).cj = toI16 b := rfl
@[simp] theorem writeReading_fault : (writeReading a b r).fault = .ok := rfl
end WriteReading

section EstablishConfig
variable (m : Model) (r : Registers)
@[simp] theorem establishConfig_cfgd : (establishConfig m r).cfgd = true := rfl
@[simp] theorem establishConfig_model : (establishConfig m r).model = m := rfl
@[simp] theorem establishConfig_tc : (establishConfig m r).tc = r.tc := rfl
@[simp] theorem establishConfig_cj : (establishConfig m r).cj = r.cj := rfl
@[simp] theorem establishConfig_fault : (establishConfig m r).fault = r.fault := rfl
end EstablishConfig

section WithRegisters
variable (r : Registers) (s : State)
@[simp] theorem withRegisters_toRegisters : (s.withRegisters r).toRegisters = r := rfl
@[simp] theorem withRegisters_pending : (s.withRegisters r).pending = s.pending := rfl
@[simp] theorem withRegisters_self : s.withRegisters s.toRegisters = s := rfl
end WithRegisters

section Present
variable (p : PortSample) (s : State)
@[simp] theorem present_toRegisters : (present p s).toRegisters = s.toRegisters := rfl
@[simp] theorem present_pending : (present p s).pending = p :: s.pending := rfl
end Present

section MapNext
variable {σ τ υ : Type} (f : σ → τ)
@[simp] theorem mapNext_next (s : σ) : mapNext f (.next s) = .next (f s) := rfl
@[simp] theorem mapNext_mapNext (g : τ → υ) (o : Host.Outcome σ Fault Refusal) :
    mapNext g (mapNext f o) = mapNext (fun s => g (f s)) o := by cases o <;> rfl

/-- An outcome read through `f` goes on exactly when it goes on itself. -/
theorem mapNext_eq_next {o : Host.Outcome σ Fault Refusal} {t : τ} :
    mapNext f o = .next t ↔ ∃ s, o = .next s ∧ f s = t := by
  cases o <;> simp [mapNext]
end MapNext

end Sys2Proof.Machine
end

