-- ==== Sys2Proof/Laws/Ops.lean ====
section
/-! SUPPORT. What each shared operation can do, said once. -/

namespace Sys2Proof.Machine

/-- Write-back either writes a reading or raises the fault. -/
theorem writeback_cases (d : DecodeResult) (r : Registers) :
    (d.f = .ok ∧ writeback d r = writeReading d.tcv d.cjv r) ∨ (d.f ≠ .ok ∧ writeback d r = raise d.f r) := by
  by_cases h : d.f = .ok
  · exact .inl ⟨h, if_pos h⟩
  · exact .inr ⟨h, if_neg h⟩

theorem writeback_ok {d : DecodeResult} (h : d.f = .ok) (r : Registers) :
    writeback d r = writeReading d.tcv d.cjv r := if_pos h

theorem writeback_fault {d : DecodeResult} (h : d.f ≠ .ok) (r : Registers) :
    writeback d r = raise d.f r := if_neg h

@[simp] theorem writeback_cfgd (d : DecodeResult) (r : Registers) : (writeback d r).cfgd = r.cfgd := by
  rcases writeback_cases d r with ⟨-, h⟩ | ⟨-, h⟩ <;> rw [h] <;> rfl

@[simp] theorem writeback_model (d : DecodeResult) (r : Registers) : (writeback d r).model = r.model := by
  rcases writeback_cases d r with ⟨-, h⟩ | ⟨-, h⟩ <;> rw [h] <;> rfl

@[simp] theorem writeback_faultCode (d : DecodeResult) (r : Registers) : (writeback d r).fault = d.f := by
  rcases writeback_cases d r with ⟨e, h⟩ | ⟨-, h⟩ <;> rw [h]
  · exact e.symm
  · rfl

/-- Sampling with a sample waiting takes it off the list. -/
theorem samplePorts_cons {s : State} {p : PortSample} {rest : List PortSample} (h : s.pending = p :: rest) :
    samplePorts s = (p, { s with pending := rest }) := by
  simp [samplePorts, h]

/-- Sampling with none waiting reads idle ports. -/
theorem samplePorts_nil {s : State} (h : s.pending = []) : samplePorts s = (idleSample, s) := by
  simp [samplePorts, h]

/-- Sampling takes one sample off the list, if there is one. -/
theorem samplePorts_pending (s : State) : (samplePorts s).2.pending = s.pending.tail := by
  cases h : s.pending with
  | nil => simp [samplePorts_nil h, h]
  | cons p rest => simp [samplePorts_cons h]

/-- Sampling reads no register and changes none. -/
@[simp] theorem samplePorts_toRegisters (s : State) : (samplePorts s).2.toRegisters = s.toRegisters := by
  cases h : s.pending with
  | nil => rw [samplePorts_nil h]
  | cons p rest => rw [samplePorts_cons h]

/-- A MAX6675 frame reports an open thermocouple or nothing. -/
theorem faultOf6675_cases (raw : Frame6675) :
    faultOf6675 raw = .noThermocouple ∨ faultOf6675 raw = .ok := by
  unfold faultOf6675; split <;> simp

/-- A frame's bits never report an absent configuration. -/
theorem faultOf31855_ne_notConfigured (raw : Frame31855) : faultOf31855 raw ≠ .notConfigured := by
  unfold faultOf31855; split <;> [skip; split] <;> [skip; skip; split] <;> simp

@[simp] theorem decode6675_f (raw : Frame6675) : (decode6675 raw).f = faultOf6675 raw := by
  unfold decode6675; split <;> simp_all

@[simp] theorem decode31855_f (raw : Frame31855) : (decode31855 raw).f = faultOf31855 raw := by
  unfold decode31855; split <;> simp_all

end Sys2Proof.Machine
end

