-- ==== Sys2Proof/Laws/Arith.lean ====
section
/-! SUPPORT. Small facts of the arithmetic primitives and of field extraction. -/

namespace Sys2Proof.Machine

theorem tdiv_of_nonneg {a : Int} (h : 0 ≤ a) (b : Int) : tdiv a b = a / b := if_pos h

theorem tdiv_of_neg {a : Int} (h : a < 0) (b : Int) : tdiv a b = -((-a) / b) := if_neg (by omega)

theorem negN_of_pos {n v : Nat} (h : 0 < v) : negN n v = 2 ^ n - v :=
  Nat.mod_eq_of_lt (Nat.sub_lt (Nat.two_pow_pos n) h)

theorem cjField_lt (raw : Frame31855) : cjField raw < 4096 :=
  Nat.lt_of_le_of_lt Nat.and_le_right (by decide)

theorem tcField_lt (raw : Frame31855) : tcField raw < 16384 :=
  Nat.lt_of_le_of_lt Nat.and_le_right (by decide)

theorem mag6675_lt (raw : Frame6675) : mag6675 raw < 8192 := by
  have := raw.isLt
  simp only [mag6675, f6675Shift, Nat.shiftRight_eq_div_pow]
  omega

/-- The top bit of an `n + 1`-bit number is set when the number is in the upper half. -/
theorem testBit_top {n f : Nat} (h : f < 2 ^ (n + 1)) : f.testBit n = decide (2 ^ n ≤ f) := by
  rw [Nat.testBit_eq_decide_div_mod_eq]
  have : f / 2 ^ n < 2 := (Nat.div_lt_iff_lt_mul (Nat.two_pow_pos n)).2 (by rw [Nat.pow_succ] at h; omega)
  have h1 : 1 ≤ f / 2 ^ n ↔ 2 ^ n ≤ f := by
    rw [Nat.le_div_iff_mul_le (Nat.two_pow_pos n), Nat.one_mul]
  rw [decide_eq_decide, ← h1]
  generalize f / 2 ^ n = q at *
  omega

/-- The internal field is the bits 15:4 (30_encoding.md R50). -/
theorem cjField_eq_bits (raw : Frame31855) : cjField raw = (raw.extractLsb' 4 12).toNat := by
  simp only [cjField, cjShift, cjMask, BitVec.extractLsb'_toNat]
  exact Nat.and_two_pow_sub_one_eq_mod _ 12

/-- The thermocouple field is the bits 31:18 (30_encoding.md R51). -/
theorem tcField_eq_bits (raw : Frame31855) : tcField raw = (raw.extractLsb' 18 14).toNat := by
  simp only [tcField, tcShift, tcMask, BitVec.extractLsb'_toNat]
  exact Nat.and_two_pow_sub_one_eq_mod _ 14

/-- The MAX6675 magnitude is the bits 15:3 (30_encoding.md R49). -/
theorem mag6675_eq_bits (raw : Frame6675) : mag6675 raw = (raw.extractLsb' 3 13).toNat := by
  have := mag6675_lt raw
  simp only [mag6675, f6675Shift, BitVec.extractLsb'_toNat] at *
  rw [Nat.mod_eq_of_lt this]

end Sys2Proof.Machine
end

