-- ==== Sys2Proof/Laws/Decode.lean ====
section
/-! SUPPORT. The fields of a packed command word, so that no proof unfolds the packing again. -/

namespace Sys2Proof

@[simp] theorem opField_packWord (op : BitVec 2) (operand : Operand) : opField (packWord op operand) = op := by
  apply BitVec.eq_of_getLsbD_eq
  intro k hk
  have : operand.getLsbD (32 + k) = false := BitVec.getLsbD_of_ge _ _ (by omega)
  simp only [opField, packWord, BitVec.getLsbD_extractLsb', BitVec.getLsbD_or, BitVec.getLsbD_shiftLeft,
    BitVec.getLsbD_setWidth, this, hk]
  simp [show 32 + k < 34 by omega, hk, show k < 34 by omega]

@[simp] theorem operandField_packWord (op : BitVec 2) (operand : Operand) :
    operandField (packWord op operand) = operand := by
  apply BitVec.eq_of_getLsbD_eq
  intro k hk
  simp only [operandField, packWord, BitVec.getLsbD_extractLsb', BitVec.getLsbD_or, BitVec.getLsbD_shiftLeft,
    BitVec.getLsbD_setWidth, hk]
  simp [hk, show k < 34 by omega]

@[simp] theorem Model.ofBit_bit (m : Model) : Model.ofBit m.bit = m := by cases m <;> rfl

@[simp] theorem Model.bit_ofBit (b : BitVec 1) : (Model.ofBit b).bit = b := by revert b; decide

@[simp] theorem packCfgOperand_tag (m : Model) (ignored : BitVec 31) :
    (packCfgOperand m ignored).extractLsb' 0 1 = m.bit := by
  apply BitVec.eq_of_getLsbD_eq
  intro k hk
  obtain rfl : k = 0 := by omega
  simp [packCfgOperand]

@[simp] theorem packCfgOperand_ignored (m : Model) (ignored : BitVec 31) :
    (packCfgOperand m ignored).extractLsb' 1 31 = ignored := by
  apply BitVec.eq_of_getLsbD_eq
  intro k hk
  have : m.bit.getLsbD (1 + k) = false := BitVec.getLsbD_of_ge _ _ (by omega)
  simp only [packCfgOperand, BitVec.getLsbD_extractLsb', BitVec.getLsbD_or, BitVec.getLsbD_shiftLeft,
    BitVec.getLsbD_setWidth, this, hk]
  simp [show 1 + k < 32 by omega, hk, show k < 32 by omega]

end Sys2Proof
end

