-- ==== Sys2Proof/Laws/Step.lean ====
section
/-! SUPPORT. What a command and a step can do, said once; the host's run, unrolled. -/

namespace Sys2Proof.Machine

/-- Everything a DEC can do. -/
theorem execDec_cases {operand : Operand} {s t : State} (h : execDec operand s = .next t) :
    (s.cfgd = false ∧ t = s.withRegisters (raise .notConfigured s.toRegisters)) ∨
    (s.cfgd = true ∧ (decodeFrame s.model operand).f ≠ .ok ∧
      t = s.withRegisters (raise (decodeFrame s.model operand).f s.toRegisters)) ∨
    (s.cfgd = true ∧ (decodeFrame s.model operand).f = .ok ∧
      t = s.withRegisters (writeReading (decodeFrame s.model operand).tcv (decodeFrame s.model operand).cjv
        s.toRegisters)) := by
  unfold execDec at h
  split at h <;> injection h with h
  · rename_i hc
    rcases writeback_cases (decodeFrame s.model operand) s.toRegisters with ⟨e, w⟩ | ⟨e, w⟩
    · exact .inr (.inr ⟨hc, e, by rw [← h, w]⟩)
    · exact .inr (.inl ⟨hc, e, by rw [← h, w]⟩)
  · exact .inl ⟨by simp_all, h.symm⟩

/-- Everything a CFG can do. -/
theorem execCfg_cases {m : Model} {ignored : BitVec 31} {s t : State} (h : execCfg m ignored s = .next t) :
    (s.cfgd = true ∧ t = s) ∨ (s.cfgd = false ∧ t = s.withRegisters (establishConfig m s.toRegisters)) := by
  unfold execCfg at h
  split at h <;> injection h with h
  · exact .inl ⟨‹_›, h.symm⟩
  · exact .inr ⟨by simp_all, h.symm⟩

/-- No command sees the input still to come: with other samples waiting it does the same to the registers. -/
theorem exec_pending (i : Instr) (r : Registers) (l l' : List PortSample) :
    exec i ⟨r, l'⟩ = mapNext (fun t => { t with pending := l' }) (exec i ⟨r, l⟩) := by
  cases i with
  | nop operand => rfl
  | rsvd operand => rfl
  | cfg m ignored => simp only [exec, execCfg]; split <;> rfl
  | dec operand => simp only [exec, execDec]; split <;> rfl

theorem stepOn_reset {p : PortSample} (h : p.rst = true) (r : Registers) :
    stepOn p r = .next Registers.reset := if_pos h

/-- The step on a command is the command's, whatever input is still to come. -/
theorem stepOn_command {p : PortSample} (h : p.rst = false) (s : State) :
    mapNext s.withRegisters (stepOn p s.toRegisters) = exec (decode p.cmd) s := by
  simp only [stepOn, h, Bool.false_eq_true, if_false, mapNext_mapNext]
  exact (exec_pending _ _ [] s.pending).symm

/-- Everything a step can do: reset, or the command on the port. -/
theorem step_cases {s t : State} (h : step s = .next t) :
    ((samplePorts s).1.rst = true ∧ t = (samplePorts s).2.withRegisters Registers.reset) ∨
    ((samplePorts s).1.rst = false ∧ exec (decode (samplePorts s).1.cmd) (samplePorts s).2 = .next t) := by
  cases hr : (samplePorts s).1.rst with
  | true =>
    rw [step, stepOn_reset hr] at h
    injection h with h
    exact .inl ⟨rfl, h.symm⟩
  | false =>
    rw [step, ← samplePorts_toRegisters s, stepOn_command hr] at h
    exact .inr ⟨rfl, h⟩

theorem runSteps_zero (s : State) : runSteps 0 s = .next s := rfl

/-- One step that goes on, then the rest of the run. -/
theorem runSteps_of_step {k : Nat} {s s' : State} (h : step s = .next s') :
    runSteps (k + 1) s = runSteps k s' := by
  have h' : Sys2Proof.core.step s = .next s' := h
  simp only [runSteps, Host.Core.run, h']
  rfl

end Sys2Proof.Machine
end

