-- ==== Sys2Proof/Laws/PerInstr.lean ====
section
/-! SUPPORT. Facts about every constructor of `Instr`, one lemma each. -/

namespace Sys2Proof.Laws.TableRow

/-- The command's word matches the opcode table's row of the command's mnemonic (spec/opcode_table.json). -/
def Statement (i : Instr) : Prop :=
  ∃ r ∈ opcodeTable, r.mnemonic = i.mnemonic ∧ encode i &&& r.mask = r.pattern

/-- Under the rows' mask only the op of a word is left. -/
theorem packWord_masked (op : BitVec 2) (operand : Operand) :
    packWord op operand &&& 0x300000000#34 = packWord op 0#32 := by
  have hm : (0x300000000#34 : BitVec 34) = BitVec.allOnes 34 <<< 32 := by decide
  rw [hm]
  apply BitVec.eq_of_getLsbD_eq
  intro k hk
  by_cases h : k < 32
  · simp only [packWord, BitVec.getLsbD_and, BitVec.getLsbD_or, BitVec.getLsbD_shiftLeft, BitVec.getLsbD_setWidth]
    simp [h]
  · have : operand.getLsbD k = false := BitVec.getLsbD_of_ge _ _ (by omega)
    simp only [packWord, BitVec.getLsbD_and, BitVec.getLsbD_or, BitVec.getLsbD_shiftLeft, BitVec.getLsbD_setWidth,
      BitVec.getLsbD_allOnes, this]
    simp [hk, h]
    intros; omega

theorem nop (operand : Operand) : Statement (.nop operand) :=
  ⟨⟨"NOP", 0x000000000#34, 0x300000000#34⟩, by decide, rfl, packWord_masked 0#2 operand⟩

theorem cfg (m : Model) (ignored : BitVec 31) : Statement (.cfg m ignored) :=
  ⟨⟨"CFG", 0x100000000#34, 0x300000000#34⟩, by decide, rfl, packWord_masked 1#2 (packCfgOperand m ignored)⟩

theorem dec (operand : Operand) : Statement (.dec operand) :=
  ⟨⟨"DEC", 0x200000000#34, 0x300000000#34⟩, by decide, rfl, packWord_masked 2#2 operand⟩

theorem rsvd (operand : Operand) : Statement (.rsvd operand) :=
  ⟨⟨"RSVD", 0x300000000#34, 0x300000000#34⟩, by decide, rfl, packWord_masked 3#2 operand⟩

end Sys2Proof.Laws.TableRow
end

