-- ==== Sys2Proof/Tests/Slice0.lean ====
section
/-! SUPPORT. Small tests, each expected value taken from the spec's text or tables (95_test_vectors.md), and a witness for
the hypotheses of every statement that has any. -/

namespace Sys2Proof.Tests

open Sys2Proof Sys2Proof.Machine

/-- A state with the given configuration, holding the reading of R59's example, with the given samples waiting. -/
def blockState (cfgd : Bool) (model : Model) (pending : List PortSample) : State where
  cfgd := cfgd
  model := model
  tc := 0x07DA#16
  cj := 0x00C1#16
  fault := .ok
  pending := pending

-- Well-formedness: an ill-formed term for each check

theorem test_wellFormed_refuses_nop_operand : (Instr.nop 0xDEADBEEF#32).wellFormed = false := by decide
theorem test_wellFormed_refuses_cfg_ignored : (Instr.cfg .max6675 1#31).wellFormed = false := by decide
theorem test_wellFormed_refuses_rsvd : (Instr.rsvd 0#32).wellFormed = false := by decide
theorem test_wellFormed_accepts : (Instr.nop 0#32).wellFormed = true ∧ (Instr.cfg .max31855 0#31).wellFormed = true ∧
    (Instr.dec 0xFFFFFFFF#32).wellFormed = true := by decide

-- Decoding: words written out from R42 to R45 and R53, in tables 2.2 and 2.3

/-- VC-2 -/
theorem test_decode_nop : decode 0x0DEADBEEF#34 = .nop 0xDEADBEEF#32 := by decide
/-- VC-6 -/
theorem test_decode_cfg : decode 0x1FFFFFFFF#34 = .cfg .max31855 0x7FFFFFFF#31 := by decide
/-- VN-2 -/
theorem test_decode_dec : decode 0x20C9001F0#34 = .dec 0x0C9001F0#32 := by decide
/-- VC-11 -/
theorem test_decode_rsvd : decode 0x30C9001F0#34 = .rsvd 0x0C9001F0#32 := by decide
/-- The table's words in whole bytes (40 bits); a number of more than 34 bits is no command word (R8, R25). -/
theorem test_decodeTableWord : decodeTableWord 40 0x3FFFFFFFF = some (.rsvd 0xFFFFFFFF#32) ∧
    decodeTableWord 40 0x400000000 = none ∧ decodeNumber 0x400000000 = .error .widerThanCommandPort := by
  refine ⟨by decide, by decide, rfl⟩
/-- R41: the four rows of the opcode table do not overlap. -/
theorem test_rows_disjoint :
    opcodeTable.Pairwise (fun r q => r.pattern &&& q.mask ≠ q.pattern ∧ q.pattern &&& r.mask ≠ r.pattern) := by decide
/-- P1's assembly and encodings (R57). -/
theorem test_assemble : encode (AsmLine.cfg .max6675).assemble = 0x100000000#34 ∧
    encode (AsmLine.dec16 0x0C98#16).assemble = 0x200000C98#34 ∧ encode AsmLine.nop.assemble = 0x000000000#34 := by decide

-- One step of each command

/-- VC-9 -/
theorem test_nop : step (blockState true .max31855 [⟨false, 0x000000000#34⟩]) = .next (blockState true .max31855 []) := rfl
/-- VC-10 -/
theorem test_rsvd : step (blockState true .max31855 [⟨false, 0x300000000#34⟩]) = .next (blockState true .max31855 []) := rfl
/-- VC-6 -/
theorem test_cfg_first : step { State.reset with pending := [⟨false, 0x1FFFFFFFF#34⟩] } =
    .next { State.reset with cfgd := true, model := .max31855 } := rfl
/-- VC-8's case: the second CFG is ignored. -/
theorem test_cfg_second : step (blockState true .max6675 [⟨false, 0x100000001#34⟩]) = .next (blockState true .max6675 []) := rfl
/-- V6-12: bit 15 counts (90_conflicts.md C1). -/
theorem test_dec_max6675_bit15 : step (blockState true .max6675 [⟨false, 0x200008000#34⟩]) =
    .next { blockState true .max6675 [] with tc := 0x2800#16, cj := 0x0000#16, fault := .ok } := rfl
/-- V31-7: both fields minus one step, every ignored bit set, truncation toward zero. -/
theorem test_dec_max31855_negative : step (blockState true .max31855 [⟨false, 0x2FFFFFFF8#34⟩]) =
    .next { blockState true .max31855 [] with tc := 0xFFFE#16, cj := 0xFFFA#16, fault := .ok } := rfl
/-- P4, the step between its halves: reset with any word on `cmd`. -/
theorem test_reset : step (blockState true .max6675 [⟨true, 0x2FFFFFFFF#34⟩]) = .next State.reset := rfl

-- Frame assembly (table 2.1, row 1)

theorem test_assemble_frame : assemble6675 0x0C#8 0x98#8 = 0x0C98#16 ∧
    assemble31855 0x01#8 0x02#8 0x03#8 0x04#8 = 0x01020304#32 := by decide
theorem test_readByte : readByte #v[true, false, false, true, true, false, false, false] = 0x98#8 := by decide

-- Witnesses: for every statement with hypotheses, values that meet them together, each clause at a value of its range

theorem witness_ResetOutranksTheCommand :
    (blockState true .max31855 [⟨true, 0x20C9001F0#34⟩]).pending = ⟨true, 0x20C9001F0#34⟩ :: [] := rfl
theorem witness_StepRunsTheDecodedCommand :
    (blockState true .max31855 [⟨false, 0x30C9001F0#34⟩]).pending = ⟨false, 0x30C9001F0#34⟩ :: [] ∧
    (blockState false .max6675 [⟨false, 0x20C9001F0#34⟩]).pending = ⟨false, encode (.dec 0x0C9001F0#32)⟩ :: [] := by decide
theorem witness_IdlePortsChangeNothing : (blockState true .max31855 []).pending = [] := rfl
theorem witness_PresentedTableWordRunsNext :
    decodeTableWord 40 0x000000000 = some (.nop 0#32) ∧ decodeTableWord 40 0x3FFFFFFFF = some (.rsvd 0xFFFFFFFF#32) := by
  decide
theorem witness_FaultCodesAndModelTagsHaveTheirNumbers :
    (blockState true .max6675 []).model = .max6675 ∧ (blockState true .max31855 []).model = .max31855 := by decide
theorem witness_NopAndReservedChangeNothing :
    ∀ i ∈ [Instr.nop 0#32, Instr.rsvd 0xFFFFFFFF#32], (∃ o, i = .nop o) ∨ (∃ o, i = .rsvd o) := by simp
theorem witness_CfgIsWriteOnce :
    (blockState false .max6675 []).cfgd = false ∧ (blockState true .max6675 []).cfgd = true := by decide
theorem witness_DecBeforeConfiguration : State.reset.cfgd = false ∧
    exec (.dec 0xFFFFFFFF#32) State.reset = .next State.reset ∧
    exec (.cfg .max31855 0#31) State.reset = .next { State.reset with cfgd := true, model := .max31855 } :=
  ⟨rfl, rfl, rfl⟩
theorem witness_DecOfAMax6675Frame : (blockState true .max6675 []).cfgd = true ∧ (blockState true .max6675 []).model = .max6675 ∧
    (0xFFFF0004#32).getLsbD 2 = true ∧ (0x00008000#32).getLsbD 2 = false := by decide
theorem witness_Max31855FaultPriority : (blockState true .max31855 []).cfgd = true ∧ (blockState true .max31855 []).model = .max31855 ∧
    (0xFFFFFFFF#32).extractLsb' 0 3 ∈ [0b001#3, 0b011#3, 0b101#3, 0b111#3] ∧
    (0x00000006#32).extractLsb' 0 3 ∈ [0b010#3, 0b110#3] ∧ (0x0C9001F4#32).extractLsb' 0 3 = 0b100#3 ∧
    (0x00010008#32).extractLsb' 0 3 = 0b000#3 := by decide
theorem witness_DecOfAFaultFreeMax31855Frame : (blockState true .max31855 []).cfgd = true ∧
    (blockState true .max31855 []).model = .max31855 ∧ (0x80008000#32).extractLsb' 0 3 = 0b000#3 ∧
    0x800 = ((0x80008000#32).extractLsb' 4 12).toNat ∧ 0x2000 = ((0x80008000#32).extractLsb' 18 14).toNat := by decide
theorem witness_EachFaultHasExactlyItsCause : isDec (.cfg .max31855 0#31) = false ∧
    exec (.cfg .max31855 0#31) (blockState true .max6675 []) = .next (blockState true .max6675 []) := ⟨rfl, rfl⟩
theorem witness_AFaultIsPrecise :
    exec (.dec 0x00000004#32) (blockState true .max6675 []) =
      .next { blockState true .max6675 [] with fault := .noThermocouple, tc := 0#16, cj := 0#16 } ∧
    ({ blockState true .max6675 [] with fault := .noThermocouple, tc := 0#16, cj := 0#16 } : State).fault ≠ .ok := ⟨rfl, by decide⟩
theorem witness_FramesOfTheCommands :
    exec (.dec 0x00000000#32) (blockState true .max6675 []) = .next { blockState true .max6675 [] with tc := 0#16, cj := 0#16 } ∧
    exec (.cfg .max31855 0#31) (blockState false .max6675 []) = .next (blockState true .max31855 []) ∧
    exec (.cfg .max31855 0#31) (blockState true .max6675 []) = .next (blockState true .max6675 []) ∧
    exec (.nop 0#32) (blockState true .max6675 []) = .next (blockState true .max6675 []) := ⟨rfl, rfl, rfl, rfl⟩
theorem witness_IgnoredOperandBitsHaveNoEffect :
    (0x1FFFFFFFF#34).extractLsb' 32 2 = (0x100000001#34).extractLsb' 32 2 ∧ (0x1FFFFFFFF#34).extractLsb' 32 2 = 1#2 ∧
    (0x1FFFFFFFF#34).getLsbD 0 = (0x100000001#34).getLsbD 0 ∧
    (0x0DEADBEEF#34).extractLsb' 32 2 = (0x000000000#34).extractLsb' 32 2 ∧ (0x0DEADBEEF#34).extractLsb' 32 2 = 0#2 ∧
    (0x212340C98#34).extractLsb' 32 2 = (0x200000C98#34).extractLsb' 32 2 ∧ (0x212340C98#34).extractLsb' 32 2 = 2#2 ∧
    (0x212340C98#34).extractLsb' 0 16 = (0x200000C98#34).extractLsb' 0 16 ∧
    (blockState true .max6675 []).cfgd = true ∧ (blockState true .max6675 []).model = .max6675 ∧ State.reset.cfgd = false := by decide
theorem witness_IgnoredFrameBitsHaveNoEffect :
    (blockState true .max6675 []).cfgd = true ∧ (blockState true .max6675 []).model = .max6675 ∧
    (0x00000003#32).extractLsb' 2 14 = (0x00000000#32).extractLsb' 2 14 ∧
    (blockState true .max31855 []).cfgd = true ∧ (blockState true .max31855 []).model = .max31855 ∧
    (0xFFFFFFF8#32).extractLsb' 18 14 = (0xFFFCFFF0#32).extractLsb' 18 14 ∧
    (0xFFFFFFF8#32).extractLsb' 4 12 = (0xFFFCFFF0#32).extractLsb' 4 12 ∧
    (0xFFFFFFF8#32).extractLsb' 0 3 = (0xFFFCFFF0#32).extractLsb' 0 3 := by decide
theorem witness_DecIsAPureFunctionOfConfigurationAndOperand :
    (blockState false .max6675 []).cfgd = State.reset.cfgd ∧ (blockState false .max6675 []).model = State.reset.model ∧
    exec (.dec 0x00000000#32) (blockState false .max6675 []) = .next State.reset ∧
    exec (.dec 0x00000000#32) State.reset = .next State.reset := ⟨rfl, rfl, rfl, rfl⟩
theorem witness_TheTwoTemperaturesAreIndependent :
    (blockState true .max31855 []).cfgd = true ∧ (blockState true .max31855 []).model = .max31855 ∧
    (0x0C9001F0#32).extractLsb' 0 3 = 0b000#3 ∧ (0x000001F8#32).extractLsb' 0 3 = 0b000#3 ∧
    exec (.dec 0x0C9001F0#32) (blockState true .max31855 []) = .next (blockState true .max31855 []) ∧
    exec (.dec 0x000001F8#32) (blockState true .max31855 []) = .next { blockState true .max31855 [] with tc := 0#16 } ∧
    (0x0C9001F0#32).extractLsb' 4 12 = (0x000001F8#32).extractLsb' 4 12 ∧
    (0x0C9001F0#32).extractLsb' 18 14 = (0x0C930000#32).extractLsb' 18 14 :=
  ⟨rfl, rfl, by decide, by decide, rfl, rfl, by decide, by decide⟩
theorem witness_EqualMagnitudesGiveEqualThermocoupleResults :
    (blockState true .max6675 []).cfgd = true ∧ (blockState true .max6675 []).model = .max6675 ∧
    (blockState true .max31855 []).cfgd = true ∧ (blockState true .max31855 []).model = .max31855 ∧
    (0x0000FFF8#32).getLsbD 2 = false ∧ (0x7FFC0000#32).extractLsb' 0 3 = 0b000#3 ∧
    ((0x0000FFF8#32).extractLsb' 3 13).toNat = ((0x7FFC0000#32).extractLsb' 18 14).toNat := by decide
theorem witness_AFrameOfTheOtherModelDecodesByItsBits :
    (blockState true .max6675 []).cfgd = true ∧ (blockState true .max6675 []).model = .max6675 ∧
    (blockState true .max31855 []).cfgd = true ∧ (blockState true .max31855 []).model = .max31855 := by decide
theorem witness_OutcomesUnderMax6675 :
    (blockState true .max6675 []).cfgd = true ∧ (blockState true .max6675 []).model = .max6675 ∧
    exec (.dec 0xABCD0000#32) (blockState true .max6675 []) = .next { blockState true .max6675 [] with tc := 0#16, cj := 0#16 } ∧
    (0xABCD0000#32).extractLsb' 0 16 = 0x0000#16 ∧ (0x0000FFFF#32).extractLsb' 0 16 = 0xFFFF#16 :=
  ⟨rfl, rfl, rfl, by decide, by decide⟩
theorem witness_OutcomesUnderMax31855 :
    (blockState true .max31855 []).cfgd = true ∧ (blockState true .max31855 []).model = .max31855 ∧
    exec (.dec 0x80008000#32) (blockState true .max31855 []) =
      .next { blockState true .max31855 [] with tc := 0xB000#16, cj := 0xCE00#16 } := ⟨rfl, rfl, rfl⟩
theorem witness_BoundaryFieldsAndDegenerateFrames :
    (blockState true .max31855 []).cfgd = true ∧ (blockState true .max31855 []).model = .max31855 := by decide
theorem witness_ResultRangesAndExactNarrowing :
    (0x7FF8#16).getLsbD 15 = false ∧ mag6675 0x0003#16 = 0 ∧ mag6675 0xFFFB#16 = 8191 ∧ mag6675 0x7FF8#16 = 4095 ∧
    tcField 0x80000000#32 = 0x2000 ∧ tcField 0x7FFC0000#32 = 0x1FFF ∧
    cjField 0x00008000#32 = 0x800 ∧ cjField 0x00007FF0#32 = 0x7FF := by decide
theorem witness_DivisionTruncatesTowardZero : (0 : Int) < 100 ∧ (0 : Int) ≤ 0 ∧ (-625 : Int) < 0 := by decide
theorem witness_SignRecoveryYieldsTheAbsoluteValue :
    0x800 < 2 ^ (11 + 1) ∧ 2 ^ 11 ≤ 0x800 ∧ 0x7FF < 2 ^ (11 + 1) ∧ 0x7FF < 2 ^ 11 := by decide
theorem witness_TheInexactPartIsDroppedTowardZero :
    (8191 : Int) = ((0x7FFC8000#32).extractLsb' 18 14).toInt ∧ (-2048 : Int) = ((0x7FFC8000#32).extractLsb' 4 12).toInt ∧
    (-8192 : Int) = ((0x80007FF0#32).extractLsb' 18 14).toInt ∧ (2047 : Int) = ((0x80007FF0#32).extractLsb' 4 12).toInt ∧
    0 ≤ tcv31855 0x7FFC8000#32 := by decide
theorem witness_TheKthSampledBitIsRawBitFromTheTop : 0 < 16 ∧ 15 < 16 ∧ 0 < 32 ∧ 31 < 32 := by decide

/-- A legal state that is not the reset state: a MAX31855 block that holds the reading of 0x0C9001F0 (V31-1). -/
theorem legal_configured (l : List PortSample) : Inv (blockState true .max31855 l) where
  unconfigured := by simp [blockState]
  faultZero := by simp [blockState]
  okReading := fun _ => ⟨0x0C9001F0#32, rfl, rfl, rfl⟩
  wiring := fun _ => rfl

theorem witness_EveryStepKeepsTheStateLegal :
    Inv (blockState true .max31855 [⟨false, 0x20C9001F7#34⟩]) ∧
    step (blockState true .max31855 [⟨false, 0x20C9001F7#34⟩]) =
      .next { blockState true .max31855 [] with fault := .noThermocouple, tc := 0#16, cj := 0#16 } :=
  ⟨legal_configured _, rfl⟩
theorem witness_ALegalStateShowsAReadingOrAFault : Inv (blockState true .max31855 []) := legal_configured []
theorem witness_TheFirstCfgDecidesTheModelUntilReset :
    (blockState false .max6675 [command (.cfg .max31855 0#31)]).pending = [Instr.cfg .max31855 0#31].map command ∧
    runSteps 1 (blockState false .max6675 [command (.cfg .max31855 0#31)]) = .next (blockState true .max31855 []) ∧
    (blockState true .max6675 [command (.cfg .max31855 0#31)]).cfgd = true ∧
    (blockState false .max6675 [command (.cfg .max31855 0#31)]).cfgd = false := ⟨rfl, rfl, rfl, rfl⟩
theorem witness_TheResultIsTheLatestDecs :
    (∀ i ∈ [Instr.nop 0#32, Instr.cfg .max6675 0#31], isDec i = false) ∧
    (blockState true .max31855 (([Instr.dec 0x00000001#32] ++ Instr.dec 0x0C9001F0#32 ::
      [Instr.nop 0#32, Instr.cfg .max6675 0#31]).map command)).pending =
      ([Instr.dec 0x00000001#32] ++ Instr.dec 0x0C9001F0#32 :: [Instr.nop 0#32, Instr.cfg .max6675 0#31]).map command := by
  refine ⟨by simp [isDec], rfl⟩
theorem witness_BootInTheRequiredOrderDecodes :
    (∀ i ∈ [Instr.dec 0x0C9001F0#32, Instr.nop 0#32], cfgTag i = none) ∧
    (blockState true .max6675 (⟨true, 0x2FFFFFFFF#34⟩ :: ([Instr.dec 0x0C9001F0#32, Instr.nop 0#32] ++
      Instr.cfg .max31855 0#31 :: [Instr.cfg .max6675 0#31] ++ [Instr.dec 0x0C9001F0#32]).map command)).pending =
      ⟨true, 0x2FFFFFFFF#34⟩ :: ([Instr.dec 0x0C9001F0#32, Instr.nop 0#32] ++
      Instr.cfg .max31855 0#31 :: [Instr.cfg .max6675 0#31] ++ [Instr.dec 0x0C9001F0#32]).map command := by
  refine ⟨by simp [cfgTag], rfl⟩
theorem witness_WithoutResetAConfiguredBlockKeepsItsModel :
    (samplePorts (blockState true .max6675 [command (.cfg .max31855 0#31)])).1.rst = false ∧
    (blockState true .max6675 [command (.cfg .max31855 0#31)]).cfgd = true ∧
    (samplePorts (blockState false .max6675 [command (.cfg .max31855 0#31)])).1.rst = false ∧
    step (blockState false .max6675 [command (.cfg .max31855 0#31)]) = .next (blockState true .max31855 []) ∧
    (blockState true .max31855 []).model ≠ (blockState false .max6675 []).model := ⟨rfl, rfl, rfl, rfl, by decide⟩
theorem witness_TheStepIsAFunctionOfRegistersAndInput :
    (blockState true .max31855 [⟨true, 0#34⟩, ⟨false, 0#34⟩]).pending = ⟨true, 0#34⟩ :: [⟨false, 0#34⟩] := rfl

end Sys2Proof.Tests
end

section
/-! SUPPORT. The decoder's division (R10, R67) related to the library's truncating and floor division. -/

namespace Sys2Proof.Machine

/-- R10's two cases are the library's truncating division, whatever the divisor. Later facts about `tdiv` come from it. -/
theorem tdiv_eq_intTdiv (a b : Int) : tdiv a b = a.tdiv b := by
  rcases Int.lt_or_le a 0 with ha | ha
  · have hneg : (-a).tdiv b = -a / b := Int.tdiv_eq_ediv_of_nonneg (by omega)
    rw [tdiv_of_neg ha, ← hneg, Int.neg_tdiv, Int.neg_neg]
  · rw [tdiv_of_nonneg ha, Int.tdiv_eq_ediv_of_nonneg ha]

/-- R68: negating the dividend negates the quotient. -/
theorem tdiv_neg_left (a b : Int) : tdiv (-a) b = -tdiv a b := by
  simp only [tdiv_eq_intTdiv, Int.neg_tdiv]

/-- R67: truncation never goes below the floor quotient. -/
theorem ediv_le_tdiv (a : Int) {b : Int} (hb : 0 < b) : a / b ≤ tdiv a b := by
  rw [tdiv_eq_intTdiv]
  exact Int.le_tdiv_of_mul_le hb (Int.ediv_mul_le a (by omega))

theorem tdiv_nonpos_of_neg {a b : Int} (ha : a < 0) (hb : 0 < b) : tdiv a b ≤ 0 := by
  have hquot : 0 ≤ -a / b := Int.ediv_nonneg (by omega) (by omega)
  rw [tdiv_of_neg ha]
  omega

/-- Settles O35: the library's truncating division agrees with `tdiv` on both of R10's cases, which gives the symmetry
and the floor bound. -/
theorem divisionTruncatesTowardZero : Obligations.DivisionTruncatesTowardZero := by
  intro a b hb
  exact ⟨tdiv_eq_intTdiv a b, fun ha => tdiv_of_nonneg ha b,
    fun ha => ⟨ediv_le_tdiv a hb, tdiv_nonpos_of_neg ha hb⟩, tdiv_neg_left a b⟩

end Sys2Proof.Machine
end

section
/-! SUPPORT. Every command and every step as a function on the registers (10_state.md R24), and the statements about reset,
the ports and the length of a run that follow from it. -/

namespace Sys2Proof.Machine

/-- What a command makes of the registers (R53, R59, R60, R62, R63). -/
def commandEffect : Instr → Registers → Registers
  | .nop _, r => r
  | .cfg m _, r => if r.cfgd then r else establishConfig m r
  | .dec operand, r =>
    if r.cfgd then writeback (decodeFrame r.model operand) r else raise .notConfigured r
  | .rsvd _, r => r

/-- What the input of one step makes of the registers: reset outranks the command (R111, R113). -/
def inputEffect (p : PortSample) (r : Registers) : Registers :=
  if p.rst then Registers.reset else commandEffect (decode p.cmd) r

/-- Every command goes on, in every state, and changes the registers alone. -/
theorem exec_eq_commandEffect (i : Instr) (s : State) :
    exec i s = .next (s.withRegisters (commandEffect i s.toRegisters)) := by
  cases i with
  | nop operand => rfl
  | rsvd operand => rfl
  | cfg m ignored => simp only [exec, execCfg, commandEffect]; split <;> rfl
  | dec operand => simp only [exec, execDec, commandEffect]; split <;> rfl

/-- The spec's step function goes on for all registers and every input. -/
theorem stepOn_eq_inputEffect (p : PortSample) (r : Registers) :
    stepOn p r = .next (inputEffect p r) := by
  cases hr : p.rst with
  | true => simp [stepOn_reset hr, inputEffect, hr]
  | false => simp [stepOn, inputEffect, hr, exec_eq_commandEffect]

/-- Every step goes on: the sample's effect on the registers, and the sample off the list. -/
theorem step_eq_inputEffect (s : State) :
    step s = .next ((samplePorts s).2.withRegisters (inputEffect (samplePorts s).1 s.toRegisters)) := by
  rw [step, stepOn_eq_inputEffect, mapNext_next]

theorem step_of_pending_cons {s : State} {p : PortSample} {rest : List PortSample} (h : s.pending = p :: rest) :
    step s = .next { toRegisters := inputEffect p s.toRegisters, pending := rest } := by
  rw [step_eq_inputEffect, samplePorts_cons h]
  rfl

/-- With `rst = 0` the step is the command's own, in the state without the sample read (R111). -/
theorem step_of_pending_command {s : State} {w : Command} {rest : List PortSample}
    (h : s.pending = ⟨false, w⟩ :: rest) : step s = exec (decode w) { s with pending := rest } := by
  rw [step_of_pending_cons h, exec_eq_commandEffect]
  rfl

theorem step_present_command (w : Command) (s : State) : step (present ⟨false, w⟩ s) = exec (decode w) s :=
  step_of_pending_command (present_pending _ s)

/-- The idle word is a NOP without reset (R42). -/
theorem inputEffect_idleSample (r : Registers) : inputEffect idleSample r = r := rfl

/-- A table word that decodes fits the command port and is read as the port reads it. -/
theorem decodeTableWord_eq_some {nbits w : Nat} {i : Instr} (h : decodeTableWord nbits w = some i) :
    w % 2 ^ nbits < 2 ^ Config.cmdWidth ∧ decode (BitVec.ofNat 34 (w % 2 ^ nbits)) = i := by
  by_cases hfits : w % 2 ^ nbits < 2 ^ Config.cmdWidth
  · simp only [decodeTableWord, decodeNumber, if_pos hfits, Option.some.injEq] at h
    exact ⟨hfits, h⟩
  · simp [decodeTableWord, decodeNumber, if_neg hfits] at h

theorem withFetchWord_of_fits {nbits w : Nat} (h : w % 2 ^ nbits < 2 ^ Config.cmdWidth) (s : State) :
    s.withFetchWord nbits w = present ⟨false, BitVec.ofNat 34 (w % 2 ^ nbits)⟩ s := if_pos h

section Ports
variable (r : Registers)
@[simp] theorem ports_tc : r.ports.tc = r.tc := rfl
@[simp] theorem ports_cj : r.ports.cj = r.cj := rfl
@[simp] theorem ports_fault : r.ports.fault = r.fault.code := rfl
@[simp] theorem ports_cfgd : r.ports.cfgd = BitVec.ofBool r.cfgd := rfl
@[simp] theorem ports_model : r.ports.model = r.model.bit := rfl
@[simp] theorem x_zero : r.x 0 = r.tc := rfl
@[simp] theorem x_one : r.x 1 = r.cj := rfl

theorem ports_cfgd_eq_one_iff : r.ports.cfgd = 1#1 ↔ r.cfgd = true := by
  rw [ports_cfgd]
  cases r.cfgd <;> decide

theorem ports_model_eq_one_iff : r.ports.model = 1#1 ↔ r.model = .max31855 := by
  rw [ports_model]
  cases r.model <;> decide
end Ports

/-- Settles O45, by induction on the number of steps: each goes on and takes one sample off the list. -/
theorem everyRunCompletes : Obligations.EveryRunCompletes := by
  intro n
  induction n with
  | zero => exact fun s => ⟨s, runSteps_zero s, rfl⟩
  | succ n ih =>
    intro s
    obtain ⟨t, hrun, hpending⟩ :=
      ih ((samplePorts s).2.withRegisters (inputEffect (samplePorts s).1 s.toRegisters))
    refine ⟨t, (runSteps_of_step (step_eq_inputEffect s)).trans hrun, ?_⟩
    rw [hpending, withRegisters_pending, samplePorts_pending, List.drop_tail]

/-- Settles O51: the function is `inputEffect`. -/
theorem theStepIsAFunctionOfRegistersAndInput : Obligations.TheStepIsAFunctionOfRegistersAndInput :=
  ⟨fun r p => inputEffect p r, fun r p => stepOn_eq_inputEffect p r, fun _ _ _ h => step_of_pending_cons h⟩

/-- Settles O1: the reset values of R27, and the codes the ports give them. -/
theorem resetGivesTheSpecifiedRegisters : Obligations.ResetGivesTheSpecifiedRegisters :=
  ⟨reset_cfgd, reset_model, reset_tc, reset_cj, reset_fault, rfl⟩

/-- Settles O4: idle ports present a NOP. -/
theorem idlePortsChangeNothing : Obligations.IdlePortsChangeNothing := by
  intro s h
  rw [step_eq_inputEffect, samplePorts_nil h, inputEffect_idleSample, withRegisters_self]

/-- Settles O5: a word that decodes fits the port, so it is presented, and the step runs it. -/
theorem presentedTableWordRunsNext : Obligations.PresentedTableWordRunsNext := by
  intro s nbits w i h
  obtain ⟨hfits, hdecode⟩ := decodeTableWord_eq_some h
  rw [withFetchWord_of_fits hfits, step_present_command, hdecode]

/-- Settles O7: TC, CJ and FAULT's code stand on the ports as they are, and each one-bit port is 1 for one of its
register's two values. -/
theorem outputPortsShowTheRegisters : Obligations.OutputPortsShowTheRegisters := by
  intro s
  exact ⟨ports_tc _, ports_cj _, ports_fault _, ports_cfgd_eq_one_iff _, ports_model_eq_one_iff _, x_zero _, x_one _⟩

/-- Settles O42: unconfigured with NotConfigured and zeros, which is no reading and no wiring fault. -/
theorem resetStateIsLegal : Obligations.ResetStateIsLegal where
  unconfigured := fun _ => ⟨reset_model, reset_fault⟩
  faultZero := fun _ => ⟨reset_tc, reset_cj⟩
  okReading := by simp
  wiring := by simp

end Sys2Proof.Machine
end

section
/-! SUPPORT. A DEC presented again (20_memory.md R35, 41_decode.md R73): what write-back and a fault overwrite, they
overwrite again with the same values. -/

namespace Sys2Proof.Machine

theorem raise_raise (f : FaultCode) (r : Registers) : raise f (raise f r) = raise f r := rfl

theorem writeReading_writeReading (a b : Int) (r : Registers) :
    writeReading a b (writeReading a b r) = writeReading a b r := rfl

theorem writeback_writeback (d : DecodeResult) (r : Registers) : writeback d (writeback d r) = writeback d r := by
  rcases writeback_cases d r with ⟨hok, -⟩ | ⟨hfault, -⟩
  · simp only [writeback_ok hok, writeReading_writeReading]
  · simp only [writeback_fault hfault, raise_raise]

/-- Write-back leaves the configuration, so the second DEC takes the first one's path. -/
theorem commandEffect_dec_idem (operand : Operand) (r : Registers) :
    commandEffect (.dec operand) (commandEffect (.dec operand) r) = commandEffect (.dec operand) r := by
  cases hc : r.cfgd with
  | true => simp [commandEffect, hc, writeback_writeback]
  | false => simp [commandEffect, hc, raise_raise]

/-- Settles O26: the state answered is the first DEC's effect on the registers, which the second one does not change. -/
theorem decAgainChangesNothingMore : Obligations.DecAgainChangesNothingMore := by
  intro operand s
  refine ⟨_, exec_eq_commandEffect _ s, ?_⟩
  rw [exec_eq_commandEffect, withRegisters_toRegisters, commandEffect_dec_idem]
  rfl

end Sys2Proof.Machine
end

section
/-! SUPPORT. The host's frame assembly (20_memory.md R31 to R33): a byte is its samples shifted in one by one, a frame is
its bytes appended, so both are their samples with the first on top. -/

namespace Sys2Proof.Machine

/-- The bits of `x` from the top down are the samples `l` in the order taken. -/
def SampledAs {w : Nat} (x : BitVec w) (l : List Bool) : Prop :=
  l.length = w ∧ ∀ k, x.getMsbD k = l.getD k false

/-- Words read one after the other are appended, as their samples are. -/
theorem SampledAs.append {v w : Nat} {x : BitVec v} {y : BitVec w} {l m : List Bool}
    (hx : SampledAs x l) (hy : SampledAs y m) : SampledAs (x ++ y) (l ++ m) := by
  obtain ⟨hxl, hxbits⟩ := hx
  obtain ⟨hym, hybits⟩ := hy
  refine ⟨by rw [List.length_append, hxl, hym], fun k => ?_⟩
  rw [BitVec.getMsbD_append, hxbits, hybits]
  split
  · rw [List.getD_append_right _ _ _ _ (by omega), hxl]
  · rw [List.getD_append _ _ _ _ (by omega)]

theorem SampledAs.getLsbD_from_top {w : Nat} {x : BitVec w} {l : List Bool} (h : SampledAs x l) {k : Nat}
    (hk : k < w) : x.getLsbD (w - 1 - k) = l[k]! := by
  obtain ⟨-, hbits⟩ := h
  have hk' := hbits k
  rw [BitVec.getMsbD_eq_getLsbD, decide_eq_true hk, Bool.true_and, List.getD_eq_getElem?_getD] at hk'
  rw [hk', List.getElem!_eq_getElem?_getD]
  rfl

/-- R31's shift of one sample into a byte is the library's. -/
theorem shiftLeft_or_ofBool_eq_shiftConcat (acc : Byte) (b : Bool) :
    (acc <<< 1) ||| (BitVec.ofBool b).setWidth 8 = acc.shiftConcat b := by
  apply BitVec.eq_of_getLsbD_eq
  intro k hk
  rw [BitVec.getLsbD_shiftConcat]
  cases k with
  | zero => simp
  | succ k => simp [hk, BitVec.getLsbD_eq_getElem (show k < 8 by omega)]

theorem readByte_eq_foldl_shiftConcat (bits : Vector Bool 8) :
    readByte bits = bits.toList.foldl BitVec.shiftConcat 0#8 := by
  simp only [readByte, shiftLeft_or_ofBool_eq_shiftConcat]

/-- After any number of samples the last one is bit 0, the one before it bit 1, and so on up to the byte's width. -/
theorem getLsbD_foldl_shiftConcat (w : Nat) (l : List Bool) (k : Nat) :
    (l.foldl BitVec.shiftConcat 0#w).getLsbD k = (decide (k < w) && l.reverse.getD k false) := by
  induction l using List.reverseRecOn generalizing k with
  | nil => simp
  | append_singleton l b ih =>
    rw [List.foldl_append, List.foldl_cons, List.foldl_nil, BitVec.getLsbD_shiftConcat, List.reverse_append,
      List.reverse_singleton, List.singleton_append]
    cases k with
    | zero => simp
    | succ k =>
      have hdec : (decide (k + 1 < w) && decide (k < w)) = decide (k + 1 < w) := by
        rw [← Bool.decide_and]
        exact decide_eq_decide.2 (and_iff_left_of_imp Nat.lt_of_succ_lt)
      rw [if_neg k.succ_ne_zero, Nat.add_sub_cancel, ih, List.getD_cons_succ, ← Bool.and_assoc, hdec]

/-- R31: the first sample is the byte's top bit. -/
theorem readByte_sampledAs (bits : Vector Bool 8) : SampledAs (readByte bits) bits.toList := by
  refine ⟨bits.length_toList, fun k => ?_⟩
  rw [BitVec.getMsbD_eq_getLsbD, readByte_eq_foldl_shiftConcat, getLsbD_foldl_shiftConcat]
  by_cases hk : k < 8
  · have hrev : bits.toList.reverse[8 - 1 - k]? = bits.toList[k]? := by
      rw [List.getElem?_reverse (by rw [bits.length_toList]; omega), bits.length_toList,
        show 8 - 1 - (8 - 1 - k) = k by omega]
    simp only [List.getD_eq_getElem?_getD, hrev, hk, show 8 - 1 - k < 8 by omega, decide_true, Bool.true_and]
  · have hpast : bits.toList.getD k false = false :=
      List.getD_eq_default _ _ (by rw [bits.length_toList]; omega)
    rw [hpast, decide_eq_false hk, Bool.false_and]

/-- R32: `{b0, b1}`. -/
theorem assemble6675_eq_append (b0 b1 : Byte) : assemble6675 b0 b1 = b0 ++ b1 := by
  rw [BitVec.append_def, BitVec.shiftLeftZeroExtend_eq, BitVec.setWidth'_eq]
  rfl

/-- A shift that loses no bit can be done before or after widening. -/
theorem setWidth_shiftLeft_setWidth {w m n k : Nat} (x : BitVec w) (h : w + k ≤ m) :
    (x.setWidth m <<< k).setWidth n = x.setWidth n <<< k := by
  apply BitVec.eq_of_getLsbD_eq
  intro j hj
  simp only [BitVec.getLsbD_setWidth, BitVec.getLsbD_shiftLeft, hj, show j - k < n by omega, decide_true, Bool.true_and]
  by_cases hm : j < m
  · simp [hm, show j - k < m by omega]
  · simp [BitVec.getLsbD_of_ge x (j - k) (by omega)]

/-- R33: `{b0, b1, b2, b3}`. -/
theorem assemble31855_eq_append (b0 b1 b2 b3 : Byte) : assemble31855 b0 b1 b2 b3 = b0 ++ b1 ++ b2 ++ b3 := by
  simp only [BitVec.append_def, BitVec.shiftLeftZeroExtend_eq, BitVec.setWidth'_eq, BitVec.setWidth_or,
    BitVec.shiftLeft_or_distrib]
  simp [assemble31855, setWidth_shiftLeft_setWidth]

/-- Appending a byte on the right is a base-256 digit. -/
theorem toNat_append_byte {w : Nat} (x : BitVec w) (b : Byte) : (x ++ b).toNat = x.toNat * 256 + b.toNat := by
  rw [BitVec.toNat_append, ← Nat.shiftLeft_add_eq_or_of_lt b.isLt, Nat.shiftLeft_eq]

/-- Settles O40: the frames are their bytes appended, each a base-256 digit. -/
theorem bytesAssembleFirstMostSignificant : Obligations.BytesAssembleFirstMostSignificant := by
  refine ⟨fun b0 b1 => ?_, fun b0 b1 b2 b3 => ?_⟩
  · rw [assemble6675_eq_append, toNat_append_byte]
  · rw [assemble31855_eq_append, toNat_append_byte, toNat_append_byte, toNat_append_byte]
    omega

/-- Settles O41: each byte is its samples from the top, and appending keeps that. -/
theorem theKthSampledBitIsRawBitFromTheTop : Obligations.TheKthSampledBitIsRawBitFromTheTop := by
  intro a b c d
  have h6675 := (readByte_sampledAs a).append (readByte_sampledAs b)
  have h31855 := (h6675.append (readByte_sampledAs c)).append (readByte_sampledAs d)
  refine ⟨fun k hk => ?_, fun k hk => ?_⟩
  · rw [assemble6675_eq_append]
    exact h6675.getLsbD_from_top hk
  · rw [assemble31855_eq_append]
    exact h31855.getLsbD_from_top hk

end Sys2Proof.Machine
end

section
/-! SUPPORT. The conversions in R69's signed form, and the MAX6675 conversion on the operand's own bits. -/

namespace Sys2Proof.Machine

/-- A field's upper half is the negative numbers of its signed reading (R52). -/
theorem toInt_eq_sub_of_upperHalf {n : Nat} {x : BitVec (n + 1)} (h : 2 ^ n ≤ x.toNat) :
    x.toInt = (x.toNat : Int) - 2 ^ (n + 1) := by
  rw [BitVec.toInt_eq_toNat_cond, if_neg (by rw [Nat.pow_succ]; omega)]
  push_cast
  rfl

theorem toInt_eq_toNat_of_lowerHalf {n : Nat} {x : BitVec (n + 1)} (h : x.toNat < 2 ^ n) : x.toInt = x.toNat := by
  rw [BitVec.toInt_eq_toNat_cond, if_pos (by rw [Nat.pow_succ]; omega)]

/-- R69, for a field of any width: sign recovery with the sign in the multiplier is one truncating division of the signed
field's product. -/
theorem convert_recoverSign_eq_signed {n : Nat} (x : BitVec (n + 1)) (num den : Int) :
    convert (recoverSign n x.toNat) num den = (x.toInt * num).tdiv den := by
  rw [← tdiv_eq_intTdiv, convert, recoverSign, testBit_top x.isLt]
  by_cases h : 2 ^ n ≤ x.toNat
  · have hpos : 0 < x.toNat := Nat.lt_of_lt_of_le (Nat.two_pow_pos n) h
    have hmag : ((negN (n + 1) x.toNat : Nat) : Int) = -x.toInt := by
      rw [negN_of_pos hpos, Int.ofNat_sub (Nat.le_of_lt x.isLt), toInt_eq_sub_of_upperHalf h]
      push_cast
      ring
    simp [h, hmag]
  · simp [h, toInt_eq_toNat_of_lowerHalf (Nat.lt_of_not_le h)]

theorem tcv31855_eq_signed (raw : Frame31855) : tcv31855 raw = ((raw.extractLsb' 18 14).toInt * 25).tdiv 10 := by
  rw [tcv31855, tcField_eq_bits]
  exact convert_recoverSign_eq_signed _ _ _

theorem cjv31855_eq_signed (raw : Frame31855) : cjv31855 raw = ((raw.extractLsb' 4 12).toInt * 625).tdiv 100 := by
  rw [cjv31855, cjField_eq_bits]
  exact convert_recoverSign_eq_signed _ _ _

/-- The MAX6675 frame is the operand's low half, so its bits 15:3 are the operand's (R30, R49). -/
theorem mag6675_frame6675Of (operand : Operand) :
    mag6675 (frame6675Of operand) = (operand.extractLsb' 3 13).toNat := by
  rw [mag6675_eq_bits, frame6675Of]
  congr 1
  apply BitVec.eq_of_getLsbD_eq
  intro k hk
  simp [hk]

/-- R77: the dividend is no negative number, so the division is the naturals'. -/
theorem tcv6675_frame6675Of (operand : Operand) :
    tcv6675 (frame6675Of operand) = (((operand.extractLsb' 3 13).toNat * 25 / 10 : Nat) : Int) := by
  rw [tcv6675, mag6675_frame6675Of, tcNum, tcDen, tdiv_of_nonneg (by omega)]
  push_cast
  rfl

end Sys2Proof.Machine
end

section
/-! SUPPORT. The machine against the reference at its ports (20_memory.md R37): one step of the machine seen at the
ports is one step of the reference, and a run is the fold of its samples. -/

namespace Sys2Proof.Machine

section PortsAfter
variable (f : FaultCode) (a b : Int) (m : Model) (r : Registers)

/-- A fault seen at the ports (R101). -/
theorem ports_raise : (raise f r).ports = { r.ports with tc := 0#16, cj := 0#16, fault := f.code } := rfl

/-- A reading seen at the ports (R65). -/
theorem ports_writeReading :
    (writeReading a b r).ports = { r.ports with tc := toI16 a, cj := toI16 b, fault := 0#3 } := rfl

/-- A configuration seen at the ports (R60). -/
theorem ports_establishConfig :
    (establishConfig m r).ports = { r.ports with model := m.bit, cfgd := 1#1 } := rfl
end PortsAfter

/-- R74: the fault test first; without a fault the reading. -/
theorem writeback_decode6675 (raw : Frame6675) (r : Registers) :
    writeback (decode6675 raw) r =
      if faultOf6675 raw = .ok then writeReading (tcv6675 raw) 0 r else raise (faultOf6675 raw) r := by
  by_cases h : faultOf6675 raw = .ok <;> simp [writeback, decode6675, h]

/-- R80: the fault test first; without a fault the two temperatures. -/
theorem writeback_decode31855 (raw : Frame31855) (r : Registers) :
    writeback (decode31855 raw) r =
      if faultOf31855 raw = .ok then writeReading (tcv31855 raw) (cjv31855 raw) r
      else raise (faultOf31855 raw) r := by
  by_cases h : faultOf31855 raw = .ok <;> simp [writeback, decode31855, h]

/-- A DEC under MAX6675 seen at the ports is the reference's: bit 2 alone decides (R75). -/
theorem ports_writeback_max6675 {r : Registers} (hc : r.cfgd = true) (hm : r.model = .max6675) (operand : Operand) :
    (writeback (decodeFrame .max6675 operand) r).ports = refDec r.ports operand := by
  have hcfgd : r.ports.cfgd ≠ 0#1 := by rw [ports_cfgd, hc]; decide
  have hmodel : r.ports.model = 0#1 := by rw [ports_model, hm]; rfl
  have hopenBit : (frame6675Of operand).getLsbD f6675OpenBit = operand.getLsbD 2 := by
    simp [frame6675Of, f6675OpenBit]
  rw [decodeFrame, writeback_decode6675, faultOf6675, hopenBit, refDec, if_neg hcfgd, if_pos hmodel]
  cases operand.getLsbD 2 with
  | true => exact ports_raise .noThermocouple r
  | false =>
    refine (ports_writeReading _ _ r).trans ?_
    rw [tcv6675_frame6675Of, toI16, BitVec.ofInt_natCast]
    rfl

/-- A DEC under MAX31855 seen at the ports is the reference's: the first of bits 0, 1 and 2 that is set decides the fault
(R81), and without one the two paths are the signed form (R69). -/
theorem ports_writeback_max31855 {r : Registers} (hc : r.cfgd = true) (hm : r.model = .max31855) (operand : Operand) :
    (writeback (decodeFrame .max31855 operand) r).ports = refDec r.ports operand := by
  have hcfgd : r.ports.cfgd ≠ 0#1 := by rw [ports_cfgd, hc]; decide
  have hmodel : r.ports.model ≠ 0#1 := by rw [ports_model, hm]; decide
  rw [decodeFrame, frame31855Of, writeback_decode31855, faultOf31855, f31855OcBit, f31855ScgBit, f31855ScvBit, refDec,
    if_neg hcfgd, if_neg hmodel]
  cases operand.getLsbD 0 with
  | true => exact ports_raise .noThermocouple r
  | false =>
    cases operand.getLsbD 1 with
    | true => exact ports_raise .shortToGround r
    | false =>
      cases operand.getLsbD 2 with
      | true => exact ports_raise .shortToVcc r
      | false =>
        refine (ports_writeReading _ _ r).trans ?_
        rw [tcv31855_eq_signed, cjv31855_eq_signed]
        rfl

theorem ports_commandEffect_dec (operand : Operand) (r : Registers) :
    (commandEffect (.dec operand) r).ports = refDec r.ports operand := by
  cases hc : r.cfgd with
  | false => simp [commandEffect, hc, refDec, ports_raise, FaultCode.code]
  | true =>
    cases hm : r.model with
    | max6675 => simp [commandEffect, hc, hm, ports_writeback_max6675 hc hm]
    | max31855 => simp [commandEffect, hc, hm, ports_writeback_max31855 hc hm]

/-- The reference's write-once CFG (R60). -/
theorem ports_commandEffect_cfg (b : BitVec 1) (ignored : BitVec 31) (r : Registers) :
    (commandEffect (.cfg (Model.ofBit b) ignored) r).ports =
      if r.ports.cfgd = 0#1 then { r.ports with model := b, cfgd := 1#1 } else r.ports := by
  cases hc : r.cfgd with
  | false => simp [commandEffect, hc, ports_establishConfig]
  | true => simp [commandEffect, hc]

/-- The four values of the op field (R41). -/
theorem opField_cases (w : Command) :
    opField w = 0b00#2 ∨ opField w = 0b01#2 ∨ opField w = 0b10#2 ∨ opField w = 0b11#2 := by
  generalize opField w = op
  revert op
  decide

/-- The tag bit of a command word is its bit 0 (R43). -/
theorem operandField_tag (w : Command) : (operandField w).extractLsb' 0 1 = w.extractLsb' 0 1 := by
  apply BitVec.eq_of_getLsbD_eq
  intro k hk
  simp [operandField, hk]

section DecodeByOp
variable {w : Command}

theorem decode_of_opField_nop (h : opField w = 0b00#2) : decode w = .nop (operandField w) := by
  simp [decode, h]

theorem decode_of_opField_cfg (h : opField w = 0b01#2) :
    decode w = .cfg (Model.ofBit ((operandField w).extractLsb' 0 1)) ((operandField w).extractLsb' 1 31) := by
  simp [decode, h]

theorem decode_of_opField_dec (h : opField w = 0b10#2) : decode w = .dec (operandField w) := by
  simp [decode, h]

theorem decode_of_opField_rsvd (h : opField w = 0b11#2) : decode w = .rsvd (operandField w) := by
  simp [decode, h]
end DecodeByOp

/-- The reference reads a command word by the decoder's own fields (R41). -/
theorem refStep_command (p : OutputPorts) (w : Command) :
    refStep p ⟨false, w⟩ =
      if opField w = 0b01#2 then
        if p.cfgd = 0#1 then { p with model := w.extractLsb' 0 1, cfgd := 1#1 } else p
      else if opField w = 0b10#2 then refDec p (operandField w)
      else p := rfl

/-- Without reset, a command word seen at the ports does what the reference makes of it (R42, R43, R44, R53). -/
theorem ports_commandEffect_decode (w : Command) (r : Registers) :
    (commandEffect (decode w) r).ports = refStep r.ports ⟨false, w⟩ := by
  rw [refStep_command]
  rcases opField_cases w with hop | hop | hop | hop
  · rw [decode_of_opField_nop hop, hop]
    rfl
  · rw [decode_of_opField_cfg hop, if_pos hop, ports_commandEffect_cfg, operandField_tag]
  · rw [decode_of_opField_dec hop, hop]
    exact ports_commandEffect_dec _ r
  · rw [decode_of_opField_rsvd hop, hop]
    rfl

/-- One step of the machine, seen at the ports, is one step of the reference (R111). -/
theorem ports_inputEffect (p : PortSample) (r : Registers) : (inputEffect p r).ports = refStep r.ports p := by
  obtain ⟨rst, cmd⟩ := p
  cases rst with
  | true => rfl
  | false => exact ports_commandEffect_decode cmd r

/-- A run over the waiting samples completes with the fold of their effects in the registers and no sample left. -/
theorem runSteps_pending (s : State) :
    runSteps s.pending.length s =
      .next { toRegisters := s.pending.foldl (fun r p => inputEffect p r) s.toRegisters, pending := [] } := by
  obtain ⟨r, l⟩ := s
  induction l generalizing r with
  | nil => exact runSteps_zero _
  | cons p rest ih => exact (runSteps_of_step (step_of_pending_cons rfl)).trans (ih _)

/-- Settles O46: the ports carry the fold of the machine's steps over to the fold of the reference's. -/
theorem aRunIsTheFoldOfTheReferenceStep : Obligations.ARunIsTheFoldOfTheReferenceStep := by
  intro s
  refine ⟨_, runSteps_pending s, ?_, rfl⟩
  exact (List.foldl_hom Registers.ports fun r p => (ports_inputEffect p r).symm).symm

end Sys2Proof.Machine
end

section
/-! SUPPORT. Command words and commands (30_encoding.md R41 to R45, R53): the decoder's fields are the whole word, so
decoding and encoding undo each other. -/

namespace Sys2Proof.Machine

/-- The op and the operand are all of a command word (R41). -/
theorem packWord_fields (w : Command) : packWord (opField w) (operandField w) = w := by
  apply BitVec.eq_of_getLsbD_eq
  intro k hk
  simp only [packWord, opField, operandField, BitVec.getLsbD_or, BitVec.getLsbD_shiftLeft, BitVec.getLsbD_setWidth,
    BitVec.getLsbD_extractLsb', hk]
  by_cases h : k < 32
  · simp [h]
  · simp [h, show k - 32 < 34 by omega, show k - 32 < 2 by omega, show 32 + (k - 32) = k by omega]

/-- The tag and the ignored bits are all of a CFG's operand (R43). -/
theorem packCfgOperand_fields (operand : Operand) :
    packCfgOperand (Model.ofBit (operand.extractLsb' 0 1)) (operand.extractLsb' 1 31) = operand := by
  apply BitVec.eq_of_getLsbD_eq
  intro k hk
  rw [packCfgOperand, Model.bit_ofBit]
  cases k with
  | zero => simp
  | succ k => simp [hk, show k < 31 by omega, Nat.add_comm 1 k]

/-- Settles O8: the op of a command's word selects the command, and the fields packed in the operand come back. -/
theorem decodeOfEncodeIsTheCommand : Obligations.DecodeOfEncodeIsTheCommand := by
  intro i
  cases i with
  | nop operand => simp [encode, decode_of_opField_nop]
  | cfg m ignored => simp [encode, decode_of_opField_cfg]
  | dec operand => simp [encode, decode_of_opField_dec]
  | rsvd operand => simp [encode, decode_of_opField_rsvd]

/-- Settles O9: whatever the op, the command keeps the operand, and op and operand are the word. -/
theorem encodeOfDecodeIsTheWord : Obligations.EncodeOfDecodeIsTheWord := by
  intro w
  rcases opField_cases w with hop | hop | hop | hop
  · rw [decode_of_opField_nop hop, encode, ← hop, packWord_fields]
  · rw [decode_of_opField_cfg hop, encode, packCfgOperand_fields, ← hop, packWord_fields]
  · rw [decode_of_opField_dec hop, encode, ← hop, packWord_fields]
  · rw [decode_of_opField_rsvd hop, encode, ← hop, packWord_fields]

/-- Every command's word matches the opcode table's row of its mnemonic. -/
theorem encode_matches_row (i : Instr) : Laws.TableRow.Statement i := by
  cases i with
  | nop operand => exact Laws.TableRow.nop operand
  | cfg m ignored => exact Laws.TableRow.cfg m ignored
  | dec operand => exact Laws.TableRow.dec operand
  | rsvd operand => exact Laws.TableRow.rsvd operand

/-- The rows of the opcode table look at the same bits and differ there (R41). -/
theorem opcodeTable_same_mask_distinct_pattern :
    ∀ r ∈ opcodeTable, ∀ r' ∈ opcodeTable, r'.mask = r.mask ∧ (r'.pattern = r.pattern → r' = r) := by
  decide

/-- Settles O11: the row of the decoded command, whose word this is; another row that matches has the same pattern. -/
theorem everyWordMatchesExactlyItsTableRow : Obligations.EveryWordMatchesExactlyItsTableRow := by
  intro w
  obtain ⟨r, hr, hname, hmatch⟩ := encode_matches_row (decode w)
  rw [encodeOfDecodeIsTheWord] at hmatch
  refine ⟨r, hr, hmatch, hname, fun r' hr' hmatch' => ?_⟩
  obtain ⟨hmask, hdistinct⟩ := opcodeTable_same_mask_distinct_pattern r hr r' hr'
  exact hdistinct (by rw [← hmatch', hmask, hmatch])

/-- What the assembler writes, a conforming host may present (R57, R58). -/
theorem wellFormed_assemble (line : AsmLine) : line.assemble.wellFormed = true := by
  cases line <;> rfl

/-- A command with ignored bits zero that is not reserved has a line of its own name (R57). -/
theorem exists_assemble_of_wellFormed {i : Instr} (h : i.wellFormed = true) : ∃ line : AsmLine, line.assemble = i := by
  cases i with
  | nop operand =>
    obtain rfl : operand = 0#32 := eq_of_beq h
    exact ⟨.nop, rfl⟩
  | cfg m ignored =>
    obtain rfl : ignored = 0#31 := eq_of_beq h
    exact ⟨.cfg m, rfl⟩
  | dec operand => exact ⟨.dec operand, rfl⟩
  | rsvd operand => exact absurd h Bool.false_ne_true

/-- Settles O12: a well-formed command has the line of its own name, and every line's command is well-formed. -/
theorem assemblerLinesAreTheWellFormedCommands : Obligations.AssemblerLinesAreTheWellFormedCommands := by
  intro i
  refine ⟨exists_assemble_of_wellFormed, ?_⟩
  rintro ⟨line, rfl⟩
  exact wellFormed_assemble line

/-- Bit 0 of a CFG's word is the model tag (R43, R45). -/
theorem encode_cfg_tag (m : Model) (ignored : BitVec 31) : (encode (.cfg m ignored)).extractLsb' 0 1 = m.bit := by
  rw [← operandField_tag, encode, operandField_packWord, packCfgOperand_tag]

theorem getLsbD_zero_encode_cfg (m : Model) (ignored : BitVec 31) :
    (encode (.cfg m ignored)).getLsbD 0 = m.bit.getLsbD 0 := by
  simp [← encode_cfg_tag m ignored]

/-- Settles O6: the numbers of R56 and R45; the port shows the MODEL register's tag and a CFG's word carries it in bit 0. -/
theorem faultCodesAndModelTagsHaveTheirNumbers : Obligations.FaultCodesAndModelTagsHaveTheirNumbers := by
  refine ⟨rfl, rfl, rfl, rfl, rfl, fun f => ?_, fun s => ports_fault _, fun s => ⟨fun h => ?_, fun h => ?_⟩,
    fun m ignored => ⟨fun h => ?_, fun h => ?_⟩⟩
  · cases f <;> decide
  · rw [ports_model, h, Model.bit]
  · rw [ports_model, h, Model.bit]
  · rw [getLsbD_zero_encode_cfg, h]
    rfl
  · rw [getLsbD_zero_encode_cfg, h]
    rfl

/-- Settles O10: the op tells the command, and the operand's bits stand in it. -/
theorem specWordsDecodeAsWritten : Obligations.SpecWordsDecodeAsWritten := by
  unfold Obligations.SpecWordsDecodeAsWritten
  decide

/-- Settles O13: each pseudo-instruction unfolds to its expansion; widening a frame keeps its value. -/
theorem pseudoInstructionsExpand : Obligations.PseudoInstructionsExpand :=
  ⟨fun _ => rfl, fun _ => rfl, fun frame => congrArg Instr.dec (BitVec.ofNat_toNat 32 frame).symm⟩

end Sys2Proof.Machine
end

section
/-! SUPPORT. Noninterference (30_encoding.md R54, R55, 43_decode_max31855.md R89): a command's effect depends on the bits
its rules name alone. -/

namespace Sys2Proof.Machine

/-- Two DECs have the same effect when, in a configured block, their frames decode alike. -/
theorem exec_dec_congr {a b : Operand} {s : State}
    (h : s.cfgd = true → decodeFrame s.model a = decodeFrame s.model b) : exec (.dec a) s = exec (.dec b) s := by
  rw [exec_eq_commandEffect, exec_eq_commandEffect]
  cases hc : s.cfgd with
  | true => simp only [commandEffect, h hc]
  | false => simp [commandEffect, hc]

/-- Words with equal fields have equal bits there. -/
theorem getLsbD_eq_of_extractLsb'_eq {w start len : Nat} {a b : BitVec w}
    (h : a.extractLsb' start len = b.extractLsb' start len) (k : Nat) (hk : k < len) :
    a.getLsbD (start + k) = b.getLsbD (start + k) := by
  simpa [hk] using congrArg (·.getLsbD k) h

/-- R55: a MAX6675 frame is read in its open bit and its magnitude. -/
theorem decode6675_congr {a b : Frame6675} (hopen : a.getLsbD 2 = b.getLsbD 2)
    (hmag : a.extractLsb' 3 13 = b.extractLsb' 3 13) : decode6675 a = decode6675 b := by
  have hf : faultOf6675 a = faultOf6675 b := by rw [faultOf6675, faultOf6675, f6675OpenBit, hopen]
  have htcv : tcv6675 a = tcv6675 b := by simp only [tcv6675, mag6675_eq_bits, hmag]
  rw [decode6675, hf, htcv, ← decode6675]

/-- R81: the fault of a MAX31855 frame is read off its three low bits. -/
theorem faultOf31855_congr {a b : Frame31855} (h : a.extractLsb' 0 3 = b.extractLsb' 0 3) :
    faultOf31855 a = faultOf31855 b := by
  have h0 : a.getLsbD 0 = b.getLsbD 0 := getLsbD_eq_of_extractLsb'_eq h 0 (by decide)
  have h1 : a.getLsbD 1 = b.getLsbD 1 := getLsbD_eq_of_extractLsb'_eq h 1 (by decide)
  have h2 : a.getLsbD 2 = b.getLsbD 2 := getLsbD_eq_of_extractLsb'_eq h 2 (by decide)
  rw [faultOf31855, faultOf31855, f31855OcBit, f31855ScgBit, f31855ScvBit, h0, h1, h2]

/-- R89: a MAX31855 frame is read in its three fault bits and its two fields. -/
theorem decode31855_congr {a b : Frame31855} (hfault : a.extractLsb' 0 3 = b.extractLsb' 0 3)
    (hcj : a.extractLsb' 4 12 = b.extractLsb' 4 12) (htc : a.extractLsb' 18 14 = b.extractLsb' 18 14) :
    decode31855 a = decode31855 b := by
  have htcv : tcv31855 a = tcv31855 b := by rw [tcv31855_eq_signed, tcv31855_eq_signed, htc]
  have hcjv : cjv31855 a = cjv31855 b := by rw [cjv31855_eq_signed, cjv31855_eq_signed, hcj]
  rw [decode31855, faultOf31855_congr hfault, htcv, hcjv, ← decode31855]

/-- The MAX6675 frame of a command word is its bits 15:0 (R30, R44). -/
theorem frame6675Of_operandField (w : Command) : frame6675Of (operandField w) = w.extractLsb' 0 16 := by
  apply BitVec.eq_of_getLsbD_eq
  intro k hk
  simp [frame6675Of, operandField, hk]

/-- Settles O23: a CFG's effect depends on its tag, a NOP's on nothing, and a DEC's on the frame, which is the low half
under MAX6675 and is not looked at before a configuration. -/
theorem ignoredOperandBitsHaveNoEffect : Obligations.IgnoredOperandBitsHaveNoEffect := by
  intro w v s hop
  refine ⟨fun hw htag => ?_, fun hw => ?_, fun hw _ hm hframe => ?_, fun hw hc => ?_⟩
  · have hbit : w.extractLsb' 0 1 = v.extractLsb' 0 1 := by
      apply BitVec.eq_of_getLsbD_eq
      intro k hk
      obtain rfl : k = 0 := by omega
      simpa using htag
    rw [decode_of_opField_cfg hw, decode_of_opField_cfg (hop.symm.trans hw), operandField_tag, operandField_tag, hbit]
    rfl
  · rw [decode_of_opField_nop hw, decode_of_opField_nop (hop.symm.trans hw)]
    rfl
  · rw [decode_of_opField_dec hw, decode_of_opField_dec (hop.symm.trans hw)]
    refine exec_dec_congr fun _ => ?_
    simp only [hm, decodeFrame, frame6675Of_operandField, hframe]
  · rw [decode_of_opField_dec hw, decode_of_opField_dec (hop.symm.trans hw)]
    exact exec_dec_congr fun hconf => absurd (hc.symm.trans hconf) Bool.false_ne_true

/-- Settles O24: the bits named hold the fault bits and the fields, which are all that is read of a frame. -/
theorem ignoredFrameBitsHaveNoEffect : Obligations.IgnoredFrameBitsHaveNoEffect := by
  intro a b s _
  refine ⟨fun hm hbits => exec_dec_congr fun _ => ?_, fun hm htc hcj hfault => exec_dec_congr fun _ => ?_⟩
  · simp only [hm, decodeFrame]
    refine decode6675_congr ?_ ?_
    · simpa [frame6675Of] using getLsbD_eq_of_extractLsb'_eq hbits 0 (by decide)
    · apply BitVec.eq_of_getLsbD_eq
      intro k hk
      simpa [frame6675Of, hk, ← Nat.add_assoc] using getLsbD_eq_of_extractLsb'_eq hbits (1 + k) (by omega)
  · simp only [hm, decodeFrame]
    exact decode31855_congr hfault hcj htc

end Sys2Proof.Machine
end

section
/-! SUPPORT. Sign recovery (30_encoding.md R52) for a field of any width. -/

namespace Sys2Proof.Machine

section
variable {n f : Nat} (hf : f < 2 ^ (n + 1))
include hf

theorem recoverSign_of_upperHalf (h : 2 ^ n ≤ f) : recoverSign n f = ⟨true, 2 ^ (n + 1) - f⟩ := by
  rw [recoverSign, testBit_top hf, decide_eq_true h, if_pos rfl,
    negN_of_pos (Nat.lt_of_lt_of_le (Nat.two_pow_pos n) h)]

theorem recoverSign_of_lowerHalf (h : f < 2 ^ n) : recoverSign n f = ⟨false, f⟩ := by
  rw [recoverSign, testBit_top hf, decide_eq_false (Nat.not_le.2 h), if_neg Bool.false_ne_true]
end

/-- Settles O36: the upper half is negated, the lower half kept; the most negative field is the upper half's least. -/
theorem signRecoveryYieldsTheAbsoluteValue : Obligations.SignRecoveryYieldsTheAbsoluteValue := by
  intro n f hf
  have hdouble : 2 ^ (n + 1) = 2 ^ n + 2 ^ n := Nat.two_pow_succ n
  have hpos : 0 < 2 ^ n := Nat.two_pow_pos n
  refine ⟨fun h => ?_, recoverSign_of_lowerHalf hf, ?_⟩
  · rw [recoverSign_of_upperHalf hf h]
    refine ⟨rfl, ?_, ?_, ?_⟩
    · simp only [Int.ofNat_sub (Nat.le_of_lt hf)]
      push_cast
      ring
    · exact Nat.sub_pos_of_lt hf
    · simp only
      omega
  · rw [recoverSign_of_upperHalf (by omega) (Nat.le_refl _), hdouble, Nat.add_sub_cancel]

end Sys2Proof.Machine
end

section
/-! SUPPORT. The configuration (40_config.md R59 to R61): what one command, and a sequence of commands without reset,
makes of CFGD and MODEL, and the frames of the commands. -/

namespace Sys2Proof.Machine

section OneCommand
variable (m : Model) (ignored : BitVec 31) {r : Registers}

/-- R60's write-once guard. -/
theorem commandEffect_cfg_of_configured (h : r.cfgd = true) : commandEffect (.cfg m ignored) r = r := if_pos h

theorem commandEffect_cfg_of_unconfigured (h : r.cfgd = false) :
    commandEffect (.cfg m ignored) r = establishConfig m r := if_neg (Bool.eq_false_iff.1 h)

end OneCommand

@[simp] theorem commandEffect_dec_cfgd (operand : Operand) (r : Registers) :
    (commandEffect (.dec operand) r).cfgd = r.cfgd := by
  cases hc : r.cfgd <;> simp [commandEffect, hc]

@[simp] theorem commandEffect_dec_model (operand : Operand) (r : Registers) :
    (commandEffect (.dec operand) r).model = r.model := by
  cases hc : r.cfgd <;> simp [commandEffect, hc]

/-- A configured block stays configured, and a CFG alone configures one (R61). -/
theorem commandEffect_cfgd (i : Instr) (r : Registers) :
    (commandEffect i r).cfgd = (r.cfgd || (cfgTag i).isSome) := by
  cases i with
  | nop operand => simp [commandEffect, cfgTag]
  | rsvd operand => simp [commandEffect, cfgTag]
  | dec operand => simp [cfgTag]
  | cfg m ignored =>
    cases hc : r.cfgd with
    | true => rw [commandEffect_cfg_of_configured m ignored hc, hc, Bool.true_or]
    | false => rw [commandEffect_cfg_of_unconfigured m ignored hc]; rfl

/-- MODEL is fixed in a configured block, and takes a CFG's tag before that (R61). -/
theorem commandEffect_model (i : Instr) (r : Registers) :
    (commandEffect i r).model = if r.cfgd then r.model else (cfgTag i).getD r.model := by
  cases i with
  | nop operand => simp [commandEffect, cfgTag]
  | rsvd operand => simp [commandEffect, cfgTag]
  | dec operand => simp [cfgTag]
  | cfg m ignored =>
    cases hc : r.cfgd with
    | true => rw [commandEffect_cfg_of_configured m ignored hc, if_pos rfl]
    | false => rw [commandEffect_cfg_of_unconfigured m ignored hc]; rfl

/-- MODEL changes only as CFGD goes from 0 to 1 (R61). -/
theorem commandEffect_configures_of_model_ne {i : Instr} {r : Registers} (h : (commandEffect i r).model ≠ r.model) :
    r.cfgd = false ∧ (commandEffect i r).cfgd = true := by
  rw [commandEffect_model] at h
  rw [commandEffect_cfgd]
  cases hc : r.cfgd with
  | true => simp [hc] at h
  | false =>
    cases htag : cfgTag i with
    | none => simp [hc, htag] at h
    | some m => simp

/-- What a sequence of commands makes of the registers, the first command first. -/
def commandsEffect (l : List Instr) (r : Registers) : Registers :=
  l.foldl (fun r i => commandEffect i r) r

@[simp] theorem commandsEffect_nil (r : Registers) : commandsEffect [] r = r := rfl
@[simp] theorem commandsEffect_cons (i : Instr) (l : List Instr) (r : Registers) :
    commandsEffect (i :: l) r = commandsEffect l (commandEffect i r) := rfl

/-- A command presented without reset is read back as itself and has its own effect (R111). -/
theorem inputEffect_command (i : Instr) (r : Registers) : inputEffect (command i) r = commandEffect i r :=
  congrArg (commandEffect · r) (decodeOfEncodeIsTheCommand i)

/-- A run over presented commands completes with their effect in the registers and the samples after them waiting. -/
theorem runSteps_commands (l : List Instr) (rest : List PortSample) (r : Registers) :
    runSteps l.length { toRegisters := r, pending := l.map command ++ rest } =
      .next { toRegisters := commandsEffect l r, pending := rest } := by
  induction l generalizing r with
  | nil => exact runSteps_zero _
  | cons i l ih =>
    refine (runSteps_of_step (step_of_pending_cons rfl)).trans ?_
    rw [inputEffect_command]
    exact ih _

/-- The first CFG of a sequence is its first command, if that is a CFG, or the rest's. -/
theorem firstCfgTag_cons (i : Instr) (l : List Instr) : firstCfgTag (i :: l) = (cfgTag i).or (firstCfgTag l) := by
  cases h : cfgTag i <;> simp [firstCfgTag, h]

/-- A sequence of commands configures the block exactly if it holds a CFG. -/
theorem commandsEffect_cfgd (l : List Instr) (r : Registers) :
    (commandsEffect l r).cfgd = (r.cfgd || (firstCfgTag l).isSome) := by
  induction l generalizing r with
  | nil => simp [firstCfgTag]
  | cons i l ih => rw [commandsEffect_cons, ih, commandEffect_cfgd, firstCfgTag_cons, Option.isSome_or, Bool.or_assoc]

/-- The first CFG of a sequence decides MODEL, in a block not yet configured. -/
theorem commandsEffect_model (l : List Instr) (r : Registers) :
    (commandsEffect l r).model = if r.cfgd then r.model else (firstCfgTag l).getD r.model := by
  induction l generalizing r with
  | nil => simp [firstCfgTag]
  | cons i l ih =>
    rw [commandsEffect_cons, ih, commandEffect_cfgd, commandEffect_model, firstCfgTag_cons]
    cases r.cfgd <;> cases cfgTag i <;> simp

/-- NOPs and reserved ops, in any number, leave the registers (R53, R59). -/
theorem commandsEffect_of_idle {l : List Instr} (h : ∀ i ∈ l, (∃ o, i = .nop o) ∨ (∃ o, i = .rsvd o))
    (r : Registers) : commandsEffect l r = r := by
  induction l with
  | nil => rfl
  | cons i l ih =>
    obtain ⟨hi, hl⟩ := List.forall_mem_cons.1 h
    have hidle : commandEffect i r = r := by rcases hi with ⟨o, rfl⟩ | ⟨o, rfl⟩ <;> rfl
    rw [commandsEffect_cons, hidle, ih hl]

/-- Settles O50: without reset the step is one command's, which keeps a configured block's MODEL and CFGD; idle ports
(log entry 2) present a NOP. -/
theorem withoutResetAConfiguredBlockKeepsItsModel : Obligations.WithoutResetAConfiguredBlockKeepsItsModel := by
  intro s hrst
  have hstep := step_eq_inputEffect s
  rw [inputEffect, hrst, if_neg Bool.false_ne_true] at hstep
  refine ⟨_, hstep, fun hc => ?_, fun hm => ?_⟩
  · simp [commandEffect_cfgd, commandEffect_model, hc]
  · exact commandEffect_configures_of_model_ne hm

/-- Settles O14: each command answers the state it is given, and a run over such commands has no effect. -/
theorem nopAndReservedChangeNothing : Obligations.NopAndReservedChangeNothing := by
  refine ⟨fun operand s => ⟨rfl, rfl⟩, fun l rest s hidle => ?_⟩
  rw [runSteps_commands, commandsEffect_of_idle hidle]

/-- Settles O22: whichever of its cases a DEC or a CFG takes, it writes its own registers alone. -/
theorem framesOfTheCommands : Obligations.FramesOfTheCommands := by
  refine ⟨fun operand s t h => ?_, fun m ignored s t h => ?_, fun operand s t h => ?_⟩
  · rcases execDec_cases h with ⟨-, rfl⟩ | ⟨-, -, rfl⟩ | ⟨-, -, rfl⟩ <;> exact ⟨rfl, rfl, rfl⟩
  · have hcfg : execCfg m ignored s = .next t := h
    rcases execCfg_cases hcfg with ⟨-, rfl⟩ | ⟨hc, rfl⟩
    · exact ⟨rfl, rfl, rfl, rfl, fun _ => rfl⟩
    · exact ⟨rfl, rfl, rfl, rfl, fun hconf => absurd (hc.symm.trans hconf) Bool.false_ne_true⟩
  · rcases h with h | h <;> injection h with h <;> exact h.symm

/-- Settles O47: the run ends with the effect of its commands, whose CFGD and MODEL the first CFG decides. -/
theorem theFirstCfgDecidesTheModelUntilReset : Obligations.TheFirstCfgDecidesTheModelUntilReset := by
  rintro l ⟨r, pending⟩ t rfl hrun
  have hcomplete := runSteps_commands l [] r
  rw [List.append_nil, hrun] at hcomplete
  injection hcomplete with ht
  subst ht
  simp only [commandsEffect_cfgd, commandsEffect_model]
  refine ⟨fun hc => ?_, fun hc => ?_⟩
  · simp [hc]
  · simp [hc, Option.isSome_iff_exists]

/-- Settles O15: the two branches of R60. -/
theorem cfgIsWriteOnce : Obligations.CfgIsWriteOnce := by
  intro m ignored s
  refine ⟨fun hc => ?_, fun hc => ?_⟩
  · rw [exec_eq_commandEffect, commandEffect_cfg_of_unconfigured m ignored hc]
    rfl
  · rw [exec_eq_commandEffect, commandEffect_cfg_of_configured m ignored hc, withRegisters_self]

end Sys2Proof.Machine
end

section
/-! SUPPORT. The command DEC (41_decode.md R63, R73): its two paths as effects on the registers, and what they read of
the state. -/

namespace Sys2Proof.Machine

section
variable (operand : Operand) {r : Registers}

/-- R62, R64: a configured block decodes the frame and writes back. -/
theorem commandEffect_dec_of_configured (h : r.cfgd = true) :
    commandEffect (.dec operand) r = writeback (decodeFrame r.model operand) r := if_pos h

/-- R63: the guard comes before any look at the frame. -/
theorem commandEffect_dec_of_unconfigured (h : r.cfgd = false) :
    commandEffect (.dec operand) r = raise .notConfigured r := if_neg (Bool.eq_false_iff.1 h)
end

/-- A fault leaves nothing of the registers but the configuration. -/
theorem raise_congr (f : FaultCode) {r₁ r₂ : Registers} (hc : r₁.cfgd = r₂.cfgd) (hm : r₁.model = r₂.model) :
    raise f r₁ = raise f r₂ := by
  simp only [raise, hc, hm]

theorem writeReading_congr (a b : Int) {r₁ r₂ : Registers} (hc : r₁.cfgd = r₂.cfgd) (hm : r₁.model = r₂.model) :
    writeReading a b r₁ = writeReading a b r₂ := by
  simp only [writeReading, hc, hm]

theorem writeback_congr (d : DecodeResult) {r₁ r₂ : Registers} (hc : r₁.cfgd = r₂.cfgd) (hm : r₁.model = r₂.model) :
    writeback d r₁ = writeback d r₂ := by
  rw [writeback, writeback, writeReading_congr _ _ hc hm, raise_congr _ hc hm]

/-- R73: a DEC makes the same registers of any two that agree in CFGD and MODEL. -/
theorem commandEffect_dec_congr (operand : Operand) {r₁ r₂ : Registers} (hc : r₁.cfgd = r₂.cfgd)
    (hm : r₁.model = r₂.model) : commandEffect (.dec operand) r₁ = commandEffect (.dec operand) r₂ := by
  cases h : r₂.cfgd with
  | true =>
    rw [commandEffect_dec_of_configured operand (hc.trans h), commandEffect_dec_of_configured operand h, hm,
      writeback_congr _ hc hm]
  | false =>
    rw [commandEffect_dec_of_unconfigured operand (hc.trans h), commandEffect_dec_of_unconfigured operand h,
      raise_congr _ hc hm]

/-- Settles O25: the two DECs leave the same registers, and CFGD and MODEL are the state's own. -/
theorem decIsAPureFunctionOfConfigurationAndOperand :
    Obligations.DecIsAPureFunctionOfConfigurationAndOperand := by
  intro operand s₁ s₂ t₁ t₂ hc hm h₁ h₂
  obtain ⟨hcfgd, hmodel, hpending⟩ := framesOfTheCommands.1 operand s₁ t₁ h₁
  have hunchanged : t₁ = { s₁ with tc := t₁.tc, cj := t₁.cj, fault := t₁.fault } := by
    rw [← hcfgd, ← hmodel, ← hpending]
  rw [exec_eq_commandEffect] at h₁ h₂
  injection h₁ with h₁
  injection h₂ with h₂
  have hregisters : t₁.toRegisters = t₂.toRegisters := by
    rw [← h₁, ← h₂]
    exact commandEffect_dec_congr operand hc hm
  exact ⟨congrArg Registers.tc hregisters, congrArg Registers.cj hregisters, congrArg Registers.fault hregisters,
    hunchanged⟩

/-- Settles O16: the DEC raises NotConfigured and leaves CFGD at 0, so the CFG after it configures the block, and the
next DEC reads CFGD and MODEL alone. -/
theorem decBeforeConfigurationReportsNotConfigured :
    Obligations.DecBeforeConfigurationReportsNotConfigured := by
  intro operand s hc
  have hdec : exec (.dec operand) s = .next (s.withRegisters (raise .notConfigured s.toRegisters)) := by
    rw [exec_eq_commandEffect, commandEffect_dec_of_unconfigured operand hc]
  refine ⟨hdec, fun m ignored frame t u ht hu => ?_⟩
  rw [hdec] at ht
  injection ht with ht
  subst ht
  rw [(cfgIsWriteOnce m ignored (s.withRegisters (raise .notConfigured s.toRegisters))).1 hc] at hu
  injection hu with hu
  subst hu
  rw [exec_eq_commandEffect, exec_eq_commandEffect,
    commandEffect_dec_congr frame (r₂ := { s.toRegisters with cfgd := true, model := m }) rfl rfl]
  rfl

end Sys2Proof.Machine
end

section
/-! SUPPORT. The arithmetic of the decode (41_decode.md R69 to R72): what truncating division drops, how large the fields
and their products are, and the ranges of the results. -/

namespace Sys2Proof.Machine

/-- R67: what truncation drops of a non-negative dividend is less than the divisor, and by at least `g` when `g` divides
both. -/
theorem sub_tdiv_mul_of_nonneg {g a b : Int} (hga : g ∣ a) (hgb : g ∣ b) (hb : 0 < b) (ha : 0 ≤ a) :
    0 ≤ a - a.tdiv b * b ∧ a - a.tdiv b * b ≤ b - g := by
  have hrem : a - a.tdiv b * b = a.tmod b := by rw [Int.tmod_def, Int.mul_comm]
  have hdvd : g ∣ b - (a - a.tdiv b * b) := hgb.sub (hga.sub (hgb.mul_left _))
  rw [hrem] at hdvd ⊢
  have hlt : a.tmod b < b := Int.tmod_lt_of_pos a hb
  have hle : g ≤ b - a.tmod b := Int.le_of_dvd (by omega) hdvd
  exact ⟨Int.tmod_nonneg b ha, by omega⟩

/-- Of a non-positive dividend truncation drops a non-positive part: it rounds toward zero (R68). -/
theorem sub_tdiv_mul_of_nonpos {g a b : Int} (hga : g ∣ a) (hgb : g ∣ b) (hb : 0 < b) (ha : a ≤ 0) :
    g - b ≤ a - a.tdiv b * b ∧ a - a.tdiv b * b ≤ 0 := by
  have hneg := sub_tdiv_mul_of_nonneg hga.neg_right hgb hb (Int.neg_nonneg_of_nonpos ha)
  rw [Int.neg_tdiv, Int.neg_mul] at hneg
  omega

/-- R69: truncating and floor division differ on the negative dividends that are no multiple of the divisor. -/
theorem tdiv_ne_ediv_iff {a b : Int} (hb : 0 < b) : a.tdiv b ≠ a / b ↔ a < 0 ∧ ¬ b ∣ a := by
  rw [Int.tdiv_eq_ediv, Int.sign_eq_one_of_pos hb, ← Int.not_le, ← not_or]
  split <;> simp [*]

/-- A field of `n + 1` bits read as a signed number (R52). -/
theorem signedField_bounds {n : Nat} (x : BitVec (n + 1)) : -2 ^ n ≤ x.toInt ∧ x.toInt ≤ 2 ^ n - 1 :=
  ⟨BitVec.le_toInt x, Int.le_sub_one_of_lt BitVec.toInt_lt⟩

/-- R71, for a field of any width: a result lies between those of the most negative and the most positive field. -/
theorem signedResult_bounds {n : Nat} (x : BitVec (n + 1)) {num den : Int} (hnum : 0 ≤ num) (hden : 0 < den) :
    (-2 ^ n * num).tdiv den ≤ (x.toInt * num).tdiv den ∧
      (x.toInt * num).tdiv den ≤ ((2 ^ n - 1) * num).tdiv den := by
  obtain ⟨hlo, hhi⟩ := signedField_bounds x
  exact ⟨Int.tdiv_le_tdiv hden (Int.mul_le_mul_of_nonneg_right hlo hnum),
    Int.tdiv_le_tdiv hden (Int.mul_le_mul_of_nonneg_right hhi hnum)⟩

theorem tcv31855_bounds (raw : Frame31855) : -20480 ≤ tcv31855 raw ∧ tcv31855 raw ≤ 20477 := by
  rw [tcv31855_eq_signed]
  exact signedResult_bounds _ (by decide) (by decide)

theorem cjv31855_bounds (raw : Frame31855) : -12800 ≤ cjv31855 raw ∧ cjv31855 raw ≤ 12793 := by
  rw [cjv31855_eq_signed]
  exact signedResult_bounds _ (by decide) (by decide)

/-- R77: the magnitude has no sign, so the division is the naturals'. -/
theorem tcv6675_eq_natDiv (raw : Frame6675) : tcv6675 raw = ((mag6675 raw * 25 / 10 : Nat) : Int) := by
  rw [tcv6675, tcNum, tcDen, tdiv_of_nonneg (by omega)]
  push_cast
  rfl

/-- Without bit 15 the magnitude is a 12-bit number (90_conflicts.md C1). -/
theorem mag6675_lt_of_bit15_clear {raw : Frame6675} (h : raw.getLsbD 15 = false) : mag6675 raw < 4096 := by
  have hlower : ¬ 2 ^ 15 ≤ raw.toNat := of_decide_eq_false ((testBit_top raw.isLt).symm.trans h)
  simp only [mag6675, f6675Shift, Nat.shiftRight_eq_div_pow]
  omega

/-- Narrowing keeps the value of a result in the signed range (R10, R71). -/
theorem toI16_toInt {z : Int} (hlo : -32768 ≤ z) (hhi : z ≤ 32767) : (toI16 z).toInt = z :=
  BitVec.toInt_ofInt_eq_self (by decide) hlo (Int.lt_add_one_of_le hhi)

/-- Settles O34: each result lies between those of its extreme fields, all of which are in the signed range. -/
theorem resultRangesAndExactNarrowing : Obligations.ResultRangesAndExactNarrowing := by
  refine ⟨fun raw => ?_, fun raw => ?_⟩
  · have hmag := mag6675_lt raw
    have hlo : 0 ≤ tcv6675 raw := by rw [tcv6675_eq_natDiv]; omega
    have hhi : tcv6675 raw ≤ 20477 := by rw [tcv6675_eq_natDiv]; omega
    refine ⟨hlo, hhi, toI16_toInt (by omega) (by omega), fun h => ?_, fun h => ?_, fun h => ?_, fun h => ?_⟩
    · have := mag6675_lt_of_bit15_clear h
      rw [tcv6675_eq_natDiv]
      omega
    all_goals rw [tcv6675_eq_natDiv, h]; rfl
  · obtain ⟨htclo, htchi⟩ := tcv31855_bounds raw
    obtain ⟨hcjlo, hcjhi⟩ := cjv31855_bounds raw
    refine ⟨htclo, htchi, hcjlo, hcjhi, toI16_toInt (by omega) (by omega), toI16_toInt (by omega) (by omega),
      fun h => ?_, fun h => ?_, fun h => ?_, fun h => ?_⟩
    · rw [tcv31855, h]; rfl
    · rw [tcv31855, h]; rfl
    · rw [cjv31855, h]; rfl
    · rw [cjv31855, h]; rfl

/-- The highest bit of a frame's field is the sign of the signed field (R52). -/
theorem topBit_iff_signedField_neg {w : Nat} (raw : BitVec w) (start len : Nat) (hlen : 0 < len) :
    raw.getLsbD (start + (len - 1)) = true ↔ (raw.extractLsb' start len).toInt < 0 := by
  rw [← decide_eq_true_iff (p := _ < 0), ← BitVec.msb_eq_toInt, BitVec.msb_eq_getLsbD_last,
    BitVec.getLsbD_extractLsb', decide_eq_true (Nat.sub_one_lt_of_lt hlen), Bool.true_and]

/-- A field and its signed reading differ by `0` or `2 ^ w`, so the divisors of `2 ^ w` divide both or neither. -/
theorem dvd_toInt_iff {w d : Nat} (h : d ∣ 2 ^ w) (x : BitVec w) : (d : Int) ∣ x.toInt ↔ d ∣ x.toNat := by
  rw [BitVec.toInt_eq_toNat_cond]
  split
  · exact Int.natCast_dvd_natCast
  · rw [dvd_sub_left (Int.natCast_dvd_natCast.2 h), Int.natCast_dvd_natCast]

/-- R69's condition on a field: the signed field is negative and no multiple of `d`. -/
theorem signedField_neg_and_not_dvd_iff {w d : Nat} (raw : BitVec w) (start len : Nat) (hlen : 0 < len)
    (hd : d ∣ 2 ^ len) :
    ((raw.extractLsb' start len).toInt < 0 ∧ ¬ (d : Int) ∣ (raw.extractLsb' start len).toInt) ↔
      raw.getLsbD (start + (len - 1)) = true ∧ (raw.extractLsb' start len).toNat % d ≠ 0 := by
  rw [topBit_iff_signedField_neg raw start len hlen, dvd_toInt_iff hd, Nat.dvd_iff_mod_eq_zero]

/-- Settles O37: the results are the signed form's, and the two divisions differ on the negative products that are no
multiple of the divisor, which a field's sign bit and low bits tell. -/
theorem thePathsEqualTheSignedForm : Obligations.ThePathsEqualTheSignedForm := by
  intro raw
  refine ⟨cjv31855_eq_signed raw, tcv31855_eq_signed raw, ?_, ?_⟩
  · rw [cjv31855_eq_signed, tdiv_ne_ediv_iff (by decide), cjField_eq_bits,
      ← signedField_neg_and_not_dvd_iff (d := 4) raw 4 12 (by decide) (by decide)]
    omega
  · rw [tcv31855_eq_signed, tdiv_ne_ediv_iff (by decide), tcField_eq_bits,
      ← signedField_neg_and_not_dvd_iff (d := 2) raw 18 14 (by decide) (by decide)]
    omega

/-- The magnitude of an `n + 1`-bit field is at most the most negative field's (R52, R70). -/
theorem recoverSign_magnitude_le {n f : Nat} (hf : f < 2 ^ (n + 1)) : (recoverSign n f).magnitude ≤ 2 ^ n := by
  obtain ⟨hupper, hlower, -⟩ := signRecoveryYieldsTheAbsoluteValue n f hf
  rcases Nat.lt_or_ge f (2 ^ n) with h | h
  · rw [hlower h]
    exact Nat.le_of_lt h
  · obtain ⟨-, -, -, hle⟩ := hupper h
    exact hle

/-- Settles O38: each product is the factor times at most the largest magnitude. -/
theorem productsFitTheStatedWidths : Obligations.ProductsFitTheStatedWidths := by
  refine ⟨fun raw => ?_, fun raw => ⟨?_, ?_⟩, by decide, by decide⟩
  · have := mag6675_lt raw
    omega
  · exact Nat.mul_le_mul_right 25 (recoverSign_magnitude_le (tcField_lt raw))
  · exact Nat.mul_le_mul_right 625 (recoverSign_magnitude_le (cjField_lt raw))

/-- R72: a thermocouple result drops at most 5 of the product, toward zero: product and divisor are multiples of 5. -/
theorem tcv31855_dropped {raw : Frame31855} {z : Int} (hz : z = (raw.extractLsb' 18 14).toInt) :
    (0 ≤ z → 0 ≤ z * 25 - tcv31855 raw * 10 ∧ z * 25 - tcv31855 raw * 10 ≤ 5) ∧
      (z ≤ 0 → -5 ≤ z * 25 - tcv31855 raw * 10 ∧ z * 25 - tcv31855 raw * 10 ≤ 0) := by
  rw [tcv31855_eq_signed, ← hz]
  have hdvd : 5 ∣ z * 25 := dvd_mul_of_dvd_right (by decide) z
  exact ⟨fun h => sub_tdiv_mul_of_nonneg hdvd (by decide) (by decide) (by omega),
    fun h => sub_tdiv_mul_of_nonpos hdvd (by decide) (by decide) (by omega)⟩

/-- R72: an internal result drops at most 75 of the product, toward zero: product and divisor are multiples of 25. -/
theorem cjv31855_dropped {raw : Frame31855} {c : Int} (hc : c = (raw.extractLsb' 4 12).toInt) :
    (0 ≤ c → 0 ≤ c * 625 - cjv31855 raw * 100 ∧ c * 625 - cjv31855 raw * 100 ≤ 75) ∧
      (c ≤ 0 → -75 ≤ c * 625 - cjv31855 raw * 100 ∧ c * 625 - cjv31855 raw * 100 ≤ 0) := by
  rw [cjv31855_eq_signed, ← hc]
  have hdvd : 25 ∣ c * 625 := dvd_mul_of_dvd_right (by decide) c
  exact ⟨fun h => sub_tdiv_mul_of_nonneg hdvd (by decide) (by decide) (by omega),
    fun h => sub_tdiv_mul_of_nonpos hdvd (by decide) (by decide) (by omega)⟩

/-- Settles O39: a result is exact when the dropped part, a multiple of 5 (of 25) below one unit, is zero, and a
non-negative thermocouple result drops 0 or 5, which fixes its last digit. -/
theorem theInexactPartIsDroppedTowardZero : Obligations.TheInexactPartIsDroppedTowardZero := by
  intro raw z c hz hc
  obtain ⟨htcpos, htcneg⟩ := tcv31855_dropped hz
  obtain ⟨hcjpos, hcjneg⟩ := cjv31855_dropped hc
  refine ⟨htcpos, htcneg, hcjpos, hcjneg, by omega, by omega, fun h => ?_⟩
  have hdrop : z * 25 - tcv31855 raw * 10 = 0 ∨ z * 25 - tcv31855 raw * 10 = 5 := by omega
  simp only [List.mem_cons, List.not_mem_nil, or_false]
  omega

end Sys2Proof.Machine
end

section
/-! SUPPORT. DEC under MAX6675 (42_decode_max6675.md R74 to R79): the two paths of the decode written back, the reading as
the library's truncating division, and its range in the TC register. -/

namespace Sys2Proof.Machine

section
variable {raw : Frame6675}

theorem faultOf6675_of_openBit_set (h : raw.getLsbD 2 = true) : faultOf6675 raw = .noThermocouple := if_pos h

theorem faultOf6675_of_openBit_clear (h : raw.getLsbD 2 = false) : faultOf6675 raw = .ok :=
  if_neg (Bool.eq_false_iff.1 h)

/-- R75: with bit 2 set no other bit is looked at. -/
theorem writeback_decode6675_of_openBit_set (h : raw.getLsbD 2 = true) (r : Registers) :
    writeback (decode6675 raw) r = raise .noThermocouple r := by
  rw [writeback_decode6675, faultOf6675_of_openBit_set h, if_neg (by decide)]

/-- R77, R78: the reading, and a cold junction of zero. -/
theorem writeback_decode6675_of_openBit_clear (h : raw.getLsbD 2 = false) (r : Registers) :
    writeback (decode6675 raw) r = writeReading (tcv6675 raw) 0 r := by
  rw [writeback_decode6675, if_pos (faultOf6675_of_openBit_clear h)]
end

/-- R77 with the library's truncating division. -/
theorem tcv6675_eq_intTdiv (raw : Frame6675) : tcv6675 raw = ((mag6675 raw : Int) * 25).tdiv 10 :=
  tdiv_eq_intTdiv _ _

/-- R79: the reading as TC shows it, read as two's complement. -/
theorem toI16_tcv6675_bounds (raw : Frame6675) :
    0 ≤ (toI16 (tcv6675 raw)).toInt ∧ (toI16 (tcv6675 raw)).toInt ≤ 20477 := by
  obtain ⟨hlo, hhi, hexact, -⟩ := resultRangesAndExactNarrowing.1 raw
  rw [hexact]
  exact ⟨hlo, hhi⟩

/-- The frame's open bit is the operand's bit 2 (R30). -/
theorem frame6675Of_openBit (operand : Operand) : (frame6675Of operand).getLsbD 2 = operand.getLsbD 2 := by
  simp [frame6675Of]

theorem exec_dec_of_max6675 (operand : Operand) {s : State} (hc : s.cfgd = true) (hm : s.model = .max6675) :
    exec (.dec operand) s =
      .next (s.withRegisters (writeback (decode6675 (frame6675Of operand)) s.toRegisters)) := by
  rw [exec_eq_commandEffect, commandEffect_dec_of_configured operand hc, hm, decodeFrame]

/-- Settles O17: bit 2 selects the fault or the reading, whose magnitude is the operand's bits 15:3. -/
theorem decOfAMax6675Frame : Obligations.DecOfAMax6675Frame := by
  intro operand s hc hm
  rw [exec_dec_of_max6675 operand hc hm, ← frame6675Of_openBit, ← mag6675_frame6675Of, ← tcv6675_eq_intTdiv]
  refine ⟨fun h => ?_, fun h => ⟨?_, (toI16_tcv6675_bounds _).1⟩⟩
  · rw [writeback_decode6675_of_openBit_set h]
    rfl
  · rw [writeback_decode6675_of_openBit_clear h]
    rfl

/-- Settles O30: bit 2 of the frame selects one of the two ways; it is clear in the frame of zeros, whose reading is 0,
and set in the frame of ones. -/
theorem outcomesUnderMax6675 : Obligations.OutcomesUnderMax6675 := by
  intro operand s t hc hm ht
  rw [exec_dec_of_max6675 operand hc hm, frame6675Of] at ht
  injection ht with ht
  subst ht
  generalize operand.extractLsb' 0 16 = raw
  refine ⟨?_, ?_, ?_⟩
  · cases h : raw.getLsbD 2 with
    | true =>
      rw [writeback_decode6675_of_openBit_set h]
      exact .inl ⟨rfl, rfl, rfl⟩
    | false =>
      rw [writeback_decode6675_of_openBit_clear h]
      exact .inr ⟨rfl, congrArg toI16 (tcv6675_eq_intTdiv raw), rfl, toI16_tcv6675_bounds raw⟩
  · rintro rfl
    rw [writeback_decode6675_of_openBit_clear (by decide)]
    exact ⟨rfl, rfl⟩
  · rintro rfl
    rw [writeback_decode6675_of_openBit_set (by decide)]
    rfl

end Sys2Proof.Machine
end

section
/-! SUPPORT. DEC under MAX31855 (43_decode_max31855.md R80 to R92): the fault bits first, then the two temperatures,
each of its own field. -/

namespace Sys2Proof.Machine

section Exec
variable {operand : Operand} {s : State} (hc : s.cfgd = true) (hm : s.model = .max31855)
include hc hm

theorem exec_dec_of_max31855 :
    exec (.dec operand) s = .next (s.withRegisters (writeback (decode31855 operand) s.toRegisters)) := by
  rw [exec_eq_commandEffect, commandEffect_dec_of_configured operand hc, hm, decodeFrame, frame31855Of]

/-- R65, R80: the decode's two temperatures, narrowed. -/
theorem exec_dec_of_decode31855_eq_reading {tcv cjv : Int} (h : decode31855 operand = ⟨tcv, cjv, .ok⟩) :
    exec (.dec operand) s = .next { s with tc := toI16 tcv, cj := toI16 cjv, fault := .ok } := by
  rw [exec_dec_of_max31855 hc hm, h, writeback_ok rfl]
  rfl

/-- R80: with the three fault bits clear both temperatures are extracted. -/
theorem exec_dec_of_faultOf31855_eq_ok (h : faultOf31855 operand = .ok) :
    exec (.dec operand) s =
      .next { s with tc := toI16 (tcv31855 operand), cj := toI16 (cjv31855 operand), fault := .ok } :=
  exec_dec_of_decode31855_eq_reading hc hm (if_pos h)

/-- R66, R81: a fault writes its code and zeros, and no temperature is extracted. -/
theorem exec_dec_of_faultOf31855_eq {f : FaultCode} (h : faultOf31855 operand = f) (hf : f ≠ .ok) :
    exec (.dec operand) s = .next { s with tc := 0#16, cj := 0#16, fault := f } := by
  subst h
  rw [exec_dec_of_max31855 hc hm, writeback_decode31855, if_neg hf]
  rfl
end Exec

/-- R81: the fault is that of the frame's three low bits with zeros above them. -/
theorem faultOf31855_eq_lowBits (raw : Frame31855) :
    faultOf31855 raw = faultOf31855 ((raw.extractLsb' 0 3).setWidth 32) := by
  refine faultOf31855_congr (BitVec.eq_of_getLsbD_eq fun k hk => ?_)
  simp [hk, show k < 32 by omega]

theorem faultOf31855_of_lowBits_zero {raw : Frame31855} (h : raw.extractLsb' 0 3 = 0b000#3) :
    faultOf31855 raw = .ok := by
  rw [faultOf31855_eq_lowBits, h]
  decide

/-- R81's table of the faults, over the eight values of the low bits. -/
theorem faultOf31855_table : ∀ low : BitVec 3,
    (low ∈ [0b001#3, 0b011#3, 0b101#3, 0b111#3] → faultOf31855 (low.setWidth 32) = .noThermocouple) ∧
    (low ∈ [0b010#3, 0b110#3] → faultOf31855 (low.setWidth 32) = .shortToGround) ∧
    (low = 0b100#3 → faultOf31855 (low.setWidth 32) = .shortToVcc) := by
  decide

/-- Settles O18: the low bits decide the fault by R81's table, and without one the reading is written with OK. -/
theorem max31855FaultPriority : Obligations.Max31855FaultPriority := by
  intro operand s hc hm
  obtain ⟨hopen, hground, hvcc⟩ := faultOf31855_table (operand.extractLsb' 0 3)
  rw [← faultOf31855_eq_lowBits] at hopen hground hvcc
  exact ⟨fun h => exec_dec_of_faultOf31855_eq hc hm (hopen h) (by decide),
    fun h => exec_dec_of_faultOf31855_eq hc hm (hground h) (by decide),
    fun h => exec_dec_of_faultOf31855_eq hc hm (hvcc h) (by decide),
    fun h => ⟨_, exec_dec_of_faultOf31855_eq_ok hc hm (faultOf31855_of_lowBits_zero h), rfl⟩⟩

/-- R83, R84, R86, R87, for a field of any width: the sign bit selects the negated field with the negative multiplier or
the field itself with the positive one. -/
theorem convert_recoverSign_eq_paths {n f : Nat} (hf : f < 2 ^ (n + 1)) (num den : Int) :
    convert (recoverSign n f) num den =
      if f.testBit n then (((2 ^ (n + 1) - f : Nat) : Int) * -num).tdiv den else ((f : Int) * num).tdiv den := by
  rw [convert, tdiv_eq_intTdiv, testBit_top hf]
  rcases Nat.lt_or_ge f (2 ^ n) with h | h
  · simp [recoverSign_of_lowerHalf hf h, Nat.not_le.2 h]
  · simp [recoverSign_of_upperHalf hf h, h]

theorem cjv31855_eq_paths (raw : Frame31855) : cjv31855 raw =
    if (cjField raw).testBit 11 then (((4096 - cjField raw : Nat) : Int) * -625).tdiv 100
    else ((cjField raw : Int) * 625).tdiv 100 :=
  convert_recoverSign_eq_paths (cjField_lt raw) 625 100

theorem tcv31855_eq_paths (raw : Frame31855) : tcv31855 raw =
    if (tcField raw).testBit 13 then (((16384 - tcField raw : Nat) : Int) * -25).tdiv 10
    else ((tcField raw : Int) * 25).tdiv 10 :=
  convert_recoverSign_eq_paths (tcField_lt raw) 25 10

/-- Settles O19: without a fault the reading is written, and each temperature is its field's by the document's paths. -/
theorem decOfAFaultFreeMax31855Frame : Obligations.DecOfAFaultFreeMax31855Frame := by
  intro operand s hc hm h cjf tcf hcjf htcf
  rw [exec_dec_of_faultOf31855_eq_ok hc hm (faultOf31855_of_lowBits_zero h), cjv31855_eq_paths, tcv31855_eq_paths,
    cjField_eq_bits, tcField_eq_bits, ← hcjf, ← htcf]
  rfl

/-- Settles O27: each of the two readings is the signed form of its own field (R69). -/
theorem theTwoTemperaturesAreIndependent : Obligations.TheTwoTemperaturesAreIndependent := by
  intro a b s t u hc hm ha hb ht hu
  rw [exec_dec_of_faultOf31855_eq_ok hc hm (faultOf31855_of_lowBits_zero ha)] at ht
  rw [exec_dec_of_faultOf31855_eq_ok hc hm (faultOf31855_of_lowBits_zero hb)] at hu
  injection ht with ht
  injection hu with hu
  subst ht hu
  refine ⟨fun hcj => congrArg toI16 ?_, fun htc => congrArg toI16 ?_⟩
  · rw [cjv31855_eq_signed, cjv31855_eq_signed, hcj]
  · rw [tcv31855_eq_signed, tcv31855_eq_signed, htc]

/-- R87: a MAX6675 magnitude has 13 bits, so the equal field is on the positive path, whose conversion is the
MAX6675's. -/
theorem tcv6675_eq_tcv31855 {raw : Frame6675} {frame : Frame31855} (h : mag6675 raw = tcField frame) :
    tcv6675 raw = tcv31855 frame := by
  have hlower : tcField frame < 2 ^ 13 := h ▸ mag6675_lt raw
  rw [tcv6675, h, tcv31855, tcSignBit, recoverSign_of_lowerHalf (tcField_lt frame) hlower]
  rfl

/-- Settles O28: both DECs write a reading, and the two conversions agree. -/
theorem equalMagnitudesGiveEqualThermocoupleResults : Obligations.EqualMagnitudesGiveEqualThermocoupleResults := by
  intro a b s t hcs hms hct hmt ha hb hmag
  have hs := exec_dec_of_max6675 a hcs hms
  rw [writeback_decode6675_of_openBit_clear ((frame6675Of_openBit a).trans ha)] at hs
  refine ⟨_, _, hs, exec_dec_of_faultOf31855_eq_ok hct hmt (faultOf31855_of_lowBits_zero hb),
    congrArg toI16 (tcv6675_eq_tcv31855 ?_)⟩
  rw [mag6675_frame6675Of, hmag, tcField_eq_bits]

/-- R81, R91: a faulting frame's code is 1, 2 or 3. -/
theorem faultOf31855_code_of_ne_ok {raw : Frame31855} (h : faultOf31855 raw ≠ .ok) :
    (faultOf31855 raw).code = 1#3 ∨ (faultOf31855 raw).code = 2#3 ∨ (faultOf31855 raw).code = 3#3 := by
  have hnot := faultOf31855_ne_notConfigured raw
  cases hf : faultOf31855 raw with
  | ok => exact absurd hf h
  | noThermocouple => exact .inl rfl
  | shortToGround => exact .inr (.inl rfl)
  | shortToVcc => exact .inr (.inr rfl)
  | notConfigured => exact absurd hf hnot

/-- Settles O31: a fault writes its code with zeros, a reading its temperatures, whose ranges narrowing keeps (R71). -/
theorem outcomesUnderMax31855 : Obligations.OutcomesUnderMax31855 := by
  intro operand s t hc hm ht
  by_cases hok : faultOf31855 operand = .ok
  · rw [exec_dec_of_faultOf31855_eq_ok hc hm hok] at ht
    injection ht with ht
    subst ht
    obtain ⟨htclo, htchi, hcjlo, hcjhi, htc, hcj, -⟩ := resultRangesAndExactNarrowing.2 operand
    exact .inr ⟨rfl, htc.symm ▸ htclo, htc.symm ▸ htchi, hcj.symm ▸ hcjlo, hcj.symm ▸ hcjhi⟩
  · rw [exec_dec_of_faultOf31855_eq hc hm rfl hok] at ht
    injection ht with ht
    subst ht
    exact .inl ⟨faultOf31855_code_of_ne_ok hok, rfl, rfl⟩

/-- Settles O32: the results of R90's table, each from the decode of its frame. -/
theorem boundaryFieldsDoNotWrap : Obligations.BoundaryFieldsDoNotWrap := by
  intro s hc hm
  exact ⟨exec_dec_of_decode31855_eq_reading hc hm (tcv := 0) (cjv := -6) (by decide),
    exec_dec_of_decode31855_eq_reading hc hm (tcv := 0) (cjv := -12800) (by decide),
    exec_dec_of_decode31855_eq_reading hc hm (tcv := 0) (cjv := 12793) (by decide),
    exec_dec_of_decode31855_eq_reading hc hm (tcv := 0) (cjv := 0) (by decide),
    exec_dec_of_decode31855_eq_reading hc hm (tcv := -2) (cjv := 0) (by decide),
    exec_dec_of_decode31855_eq_reading hc hm (tcv := -20480) (cjv := 0) (by decide),
    exec_dec_of_decode31855_eq_reading hc hm (tcv := 20477) (cjv := 0) (by decide)⟩

/-- Settles O33: the frame of zeros has no fault bit and two zero fields; the frame of ones has bit 0 set. -/
theorem degenerateMax31855Frames : Obligations.DegenerateMax31855Frames := by
  intro s hc hm
  exact ⟨exec_dec_of_decode31855_eq_reading hc hm (tcv := 0) (cjv := 0) (by decide),
    exec_dec_of_faultOf31855_eq hc hm (f := .noThermocouple) (by decide) (by decide)⟩

end Sys2Proof.Machine
end

section
/-! SUPPORT. Legal states (60_exceptions.md R105): what each operation on the registers needs to keep one legal, and
that every command and every step does. -/

namespace Sys2Proof.Machine

/-- The wiring faults are the MAX31855 decode's alone (R96, R97). -/
theorem decodeFrame_wiring {m : Model} {operand : Operand}
    (h : (decodeFrame m operand).f = .shortToGround ∨ (decodeFrame m operand).f = .shortToVcc) : m = .max31855 := by
  cases m with
  | max31855 => rfl
  | max6675 =>
    rw [decodeFrame, decode6675_f] at h
    rcases faultOf6675_cases (frame6675Of operand) with hf | hf <;> simp [hf] at h

section Keeps
variable {s : State}

/-- Legality is about the registers: what the ports will hold later does not matter. -/
theorem Inv.of_toRegisters_eq (hs : Inv s) {t : State} (h : t.toRegisters = s.toRegisters) : Inv t := by
  obtain ⟨r, pending⟩ := t
  subst h
  exact ⟨hs.unconfigured, hs.faultZero, hs.okReading, hs.wiring⟩

/-- R101, R105: a fault stands beside the zeros it writes, as long as it can occur under this configuration. -/
theorem inv_raise (hs : Inv s) {f : FaultCode} (hok : f ≠ .ok) (hunconf : s.cfgd = false → f = .notConfigured)
    (hwiring : f = .shortToGround ∨ f = .shortToVcc → s.model = .max31855) :
    Inv (s.withRegisters (raise f s.toRegisters)) where
  unconfigured := fun hc => ⟨(hs.unconfigured hc).1, hunconf hc⟩
  faultZero := fun _ => ⟨raise_tc _ _, raise_cj _ _⟩
  okReading := fun hf => absurd hf hok
  wiring := hwiring

/-- R65, R105: in a configured block, what a fault-free frame of its model writes is legal whatever stood there. -/
theorem inv_writeReading (hc : s.cfgd = true) {operand : Operand} (hok : (decodeFrame s.model operand).f = .ok) :
    Inv (s.withRegisters
      (writeReading (decodeFrame s.model operand).tcv (decodeFrame s.model operand).cjv s.toRegisters)) where
  unconfigured := fun h => absurd (hc.symm.trans h) (by decide)
  faultZero := fun hf => absurd rfl hf
  okReading := fun _ => ⟨operand, hok, rfl, rfl⟩
  wiring := by simp

/-- R60, R61: the first CFG finds NotConfigured, which is legal beside either model. -/
theorem inv_establishConfig (hs : Inv s) (hc : s.cfgd = false) (m : Model) :
    Inv (s.withRegisters (establishConfig m s.toRegisters)) := by
  obtain ⟨-, hfault⟩ := hs.unconfigured hc
  exact {
    unconfigured := by simp
    faultZero := hs.faultZero
    okReading := by simp [hfault]
    wiring := by simp [hfault] }

theorem execDec_keeps_inv (hs : Inv s) {operand : Operand} {t : State} (h : execDec operand s = .next t) : Inv t := by
  rcases execDec_cases h with ⟨-, rfl⟩ | ⟨hc, hfault, rfl⟩ | ⟨hc, hok, rfl⟩
  · exact inv_raise hs (by decide) (fun _ => rfl) (by simp)
  · exact inv_raise hs hfault (fun h => absurd (hc.symm.trans h) (by decide)) decodeFrame_wiring
  · exact inv_writeReading hc hok

theorem execCfg_keeps_inv (hs : Inv s) {m : Model} {ignored : BitVec 31} {t : State}
    (h : execCfg m ignored s = .next t) : Inv t := by
  rcases execCfg_cases h with ⟨-, rfl⟩ | ⟨hc, rfl⟩
  · exact hs
  · exact inv_establishConfig hs hc m

theorem exec_keeps_inv (hs : Inv s) {i : Instr} {t : State} (h : exec i s = .next t) : Inv t := by
  cases i with
  | nop operand => injection h with h; exact h ▸ hs
  | rsvd operand => injection h with h; exact h ▸ hs
  | cfg m ignored => exact execCfg_keeps_inv hs (ignored := ignored) h
  | dec operand => exact execDec_keeps_inv hs h
end Keeps

/-- Settles O43: reset gives the reset registers, which are legal, and a command keeps a legal state legal; sampling the
ports before it reads no register. -/
theorem everyStepKeepsTheStateLegal : Obligations.EveryStepKeepsTheStateLegal := by
  intro s t hs h
  rcases step_cases h with ⟨-, rfl⟩ | ⟨-, hexec⟩
  · exact resetStateIsLegal.of_toRegisters_eq rfl
  · exact exec_keeps_inv (hs.of_toRegisters_eq (samplePorts_toRegisters s)) hexec

end Sys2Proof.Machine
end

section
/-! SUPPORT. What a legal state shows at its ports (60_exceptions.md R105): a reading of the configured model, in that
model's range, or a fault code beside zeros. -/

namespace Sys2Proof.Machine

/-- R71, R79: TC of a MAX6675 reading is in range, and CJ is 0 (R78). -/
theorem IsReading.max6675_range {tc cj : Temp} (h : IsReading .max6675 tc cj) :
    0 ≤ tc.toInt ∧ tc.toInt ≤ 20477 ∧ cj = 0#16 := by
  obtain ⟨operand, hok, rfl, rfl⟩ := h
  rw [decodeFrame, decode6675_f] at hok
  rw [decodeFrame, decode6675, if_pos hok]
  obtain ⟨hlo, hhi⟩ := toI16_tcv6675_bounds (frame6675Of operand)
  exact ⟨hlo, hhi, rfl⟩

/-- R71, R91: both temperatures of a MAX31855 reading are in range. -/
theorem IsReading.max31855_range {tc cj : Temp} (h : IsReading .max31855 tc cj) :
    -20480 ≤ tc.toInt ∧ tc.toInt ≤ 20477 ∧ -12800 ≤ cj.toInt ∧ cj.toInt ≤ 12793 := by
  obtain ⟨operand, hok, rfl, rfl⟩ := h
  rw [decodeFrame, decode31855_f] at hok
  rw [decodeFrame, decode31855, if_pos hok]
  obtain ⟨htclo, htchi, hcjlo, hcjhi, htc, hcj, -⟩ := resultRangesAndExactNarrowing.2 (frame31855Of operand)
  rw [htc, hcj]
  exact ⟨htclo, htchi, hcjlo, hcjhi⟩

/-- Every code but OK's is one of 1 to 4 (R56). -/
theorem code_mem_of_ne_ok {f : FaultCode} (h : f ≠ .ok) : f.code ∈ [1#3, 2#3, 3#3, 4#3] := by
  cases f with
  | ok => exact absurd rfl h
  | noThermocouple | shortToGround | shortToVcc | notConfigured => decide

section Legal
variable {s : State} (hs : Inv s)
include hs

theorem Inv.cfgd_of_ok (hok : s.fault = .ok) : s.cfgd = true := by
  by_contra hc
  obtain ⟨-, hfault⟩ := hs.unconfigured (Bool.eq_false_iff.2 hc)
  simp [hfault] at hok

/-- 95_test_vectors.md 2.3: the only legal registers with CFGD = 0 are those of reset. -/
theorem Inv.toRegisters_eq_reset (hc : s.cfgd = false) : s.toRegisters = Registers.reset := by
  obtain ⟨hmodel, hfault⟩ := hs.unconfigured hc
  obtain ⟨htc, hcj⟩ := hs.faultZero (by simp [hfault])
  calc s.toRegisters = ⟨s.cfgd, s.model, s.tc, s.cj, s.fault⟩ := rfl
    _ = Registers.reset := by rw [hc, hmodel, htc, hcj, hfault]; rfl

/-- R71: beside OK stand temperatures in the configured model's range. -/
theorem Inv.range_of_ok (hok : s.fault = .ok) :
    s.tc.toInt ≤ 20477 ∧ (s.model = .max6675 → 0 ≤ s.tc.toInt) ∧ -20480 ≤ s.tc.toInt ∧
      -12800 ≤ s.cj.toInt ∧ s.cj.toInt ≤ 12793 := by
  have hreading := hs.okReading hok
  cases hm : s.model with
  | max6675 =>
    rw [hm] at hreading
    obtain ⟨hlo, hhi, hcj⟩ := hreading.max6675_range
    rw [hcj]
    exact ⟨hhi, fun _ => hlo, by omega, by decide, by decide⟩
  | max31855 =>
    rw [hm] at hreading
    obtain ⟨htclo, htchi, hcj⟩ := hreading.max31855_range
    exact ⟨htchi, by simp, htclo, hcj⟩

/-- R78: a MAX6675 block shows no cold junction, with or without a fault. -/
theorem Inv.cj_of_max6675 (hm : s.model = .max6675) : s.cj = 0#16 := by
  by_cases hok : s.fault = .ok
  · have hreading := hs.okReading hok
    rw [hm] at hreading
    obtain ⟨-, -, hcj⟩ := hreading.max6675_range
    exact hcj
  · exact (hs.faultZero hok).2
end Legal

/-- Settles O44: FAULT is OK beside a reading, whose range its model gives, or a fault beside zeros; unconfigured, the
registers are reset's. -/
theorem aLegalStateShowsAReadingOrAFault : Obligations.ALegalStateShowsAReadingOrAFault := by
  intro s hs
  refine ⟨?_, hs.cj_of_max6675, fun hc => congrArg Registers.ports (hs.toRegisters_eq_reset hc)⟩
  by_cases hok : s.fault = .ok
  · exact .inl ⟨congrArg FaultCode.code hok, hs.cfgd_of_ok hok, hs.range_of_ok hok⟩
  · exact .inr ⟨code_mem_of_ne_ok hok, hs.faultZero hok⟩

end Sys2Proof.Machine
end

section
/-! SUPPORT. The faults of a DEC by cause (60_exceptions.md R93 to R102), and what a fault replaces. -/

namespace Sys2Proof.Machine

/-- R75: bit 2 is the MAX6675's one cause. -/
theorem faultOf6675_eq_noThermocouple_iff (raw : Frame6675) :
    faultOf6675 raw = .noThermocouple ↔ raw.getLsbD 2 = true := by
  cases h : raw.getLsbD 2 with
  | true => simp [faultOf6675_of_openBit_set h]
  | false => simp [faultOf6675_of_openBit_clear h]

/-- R81 as a truth table: each MAX31855 fault is caused by its bit with the bits of higher priority clear. -/
theorem faultOf31855_cause (raw : Frame31855) :
    (faultOf31855 raw = .noThermocouple ↔ raw.getLsbD 0 = true) ∧
    (faultOf31855 raw = .shortToGround ↔ raw.getLsbD 0 = false ∧ raw.getLsbD 1 = true) ∧
    (faultOf31855 raw = .shortToVcc ↔ raw.getLsbD 0 = false ∧ raw.getLsbD 1 = false ∧ raw.getLsbD 2 = true) := by
  rw [faultOf31855, f31855OcBit, f31855ScgBit, f31855ScvBit]
  generalize raw.getLsbD 0 = oc, raw.getLsbD 1 = scg, raw.getLsbD 2 = scv
  revert oc scg scv
  decide

/-- R93: a frame's own bits never report NotConfigured. -/
theorem decodeFrame_ne_notConfigured (m : Model) (operand : Operand) :
    (decodeFrame m operand).f ≠ .notConfigured := by
  cases m with
  | max6675 =>
    rw [decodeFrame, decode6675_f]
    rcases faultOf6675_cases (frame6675Of operand) with h | h <;> simp [h]
  | max31855 =>
    rw [decodeFrame, decode31855_f]
    exact faultOf31855_ne_notConfigured _

theorem decodeFrame_eq_noThermocouple_iff (m : Model) (operand : Operand) :
    (decodeFrame m operand).f = .noThermocouple ↔
      (m = .max6675 ∧ operand.getLsbD 2 = true) ∨ (m = .max31855 ∧ operand.getLsbD 0 = true) := by
  cases m with
  | max6675 =>
    rw [decodeFrame, decode6675_f, faultOf6675_eq_noThermocouple_iff, frame6675Of_openBit]
    simp
  | max31855 => simp [decodeFrame, frame31855Of, (faultOf31855_cause operand).1]

/-- R96, R97: a DEC reports a wiring fault exactly when the model is the MAX31855 and the frame reports it. -/
theorem decodeFrame_eq_wiring_iff {f : FaultCode} (hf : f = .shortToGround ∨ f = .shortToVcc) (m : Model)
    (operand : Operand) : (decodeFrame m operand).f = f ↔ m = .max31855 ∧ faultOf31855 operand = f := by
  refine ⟨fun h => ?_, ?_⟩
  · subst h
    obtain rfl := decodeFrame_wiring hf
    exact ⟨rfl, (decode31855_f operand).symm⟩
  · rintro ⟨rfl, h⟩
    exact (decode31855_f operand).trans h

theorem decodeFrame_eq_shortToGround_iff (m : Model) (operand : Operand) :
    (decodeFrame m operand).f = .shortToGround ↔
      m = .max31855 ∧ operand.getLsbD 0 = false ∧ operand.getLsbD 1 = true := by
  obtain ⟨-, hground, -⟩ := faultOf31855_cause operand
  rw [decodeFrame_eq_wiring_iff (.inl rfl), hground]

theorem decodeFrame_eq_shortToVcc_iff (m : Model) (operand : Operand) :
    (decodeFrame m operand).f = .shortToVcc ↔
      m = .max31855 ∧ operand.getLsbD 0 = false ∧ operand.getLsbD 1 = false ∧ operand.getLsbD 2 = true := by
  obtain ⟨-, -, hvcc⟩ := faultOf31855_cause operand
  rw [decodeFrame_eq_wiring_iff (.inr rfl), hvcc]

/-- R63, R64: what a DEC leaves in FAULT. -/
theorem commandEffect_dec_fault (operand : Operand) (r : Registers) :
    (commandEffect (.dec operand) r).fault = if r.cfgd then (decodeFrame r.model operand).f else .notConfigured := by
  cases hc : r.cfgd with
  | true => rw [commandEffect_dec_of_configured operand hc, writeback_faultCode, if_pos rfl]
  | false => rw [commandEffect_dec_of_unconfigured operand hc, raise_fault, if_neg Bool.false_ne_true]

/-- R93: no command but DEC writes FAULT. -/
theorem commandEffect_fault_of_not_dec {i : Instr} (h : isDec i = false) (r : Registers) :
    (commandEffect i r).fault = r.fault := by
  cases i with
  | nop operand => rfl
  | rsvd operand => rfl
  | dec operand => exact absurd h (by simp [isDec])
  | cfg m ignored =>
    cases hc : r.cfgd with
    | true => rw [commandEffect_cfg_of_configured m ignored hc]
    | false => rw [commandEffect_cfg_of_unconfigured m ignored hc, establishConfig_fault]

/-- Settles O20: unconfigured, a DEC leaves NotConfigured; configured, the fault of the frame, which is never that one
and whose causes are the frame's bits. -/
theorem eachFaultHasExactlyItsCause : Obligations.EachFaultHasExactlyItsCause := by
  refine ⟨fun operand s => ⟨_, exec_eq_commandEffect _ s, ?_⟩, fun i s t hi h => ?_⟩
  · rw [withRegisters_toRegisters, commandEffect_dec_fault]
    cases hc : s.cfgd with
    | false => simp
    | true =>
      simp [decodeFrame_ne_notConfigured, decodeFrame_eq_noThermocouple_iff, decodeFrame_eq_shortToGround_iff,
        decodeFrame_eq_shortToVcc_iff]
  · rw [exec_eq_commandEffect] at h
    injection h with h
    rw [← h, withRegisters_toRegisters, commandEffect_fault_of_not_dec hi]

/-- Settles O21: of a DEC's three cases two raise a fault, which replaces these three registers, and the third leaves
OK. -/
theorem aFaultIsPrecise : Obligations.AFaultIsPrecise := by
  intro operand s t h hfault
  rcases execDec_cases (operand := operand) h with ⟨-, rfl⟩ | ⟨-, -, rfl⟩ | ⟨-, -, rfl⟩
  · rfl
  · rfl
  · exact absurd rfl hfault

end Sys2Proof.Machine
end

section
/-! SUPPORT. What a step makes of the sample it reads (70_reset_and_hazards.md R111, R113), and a frame of the model not
configured, decoded by its bits (R118). -/

namespace Sys2Proof.Machine

/-- Settles O2: the sample's effect is the reset's, which comes before any look at the word. -/
theorem resetOutranksTheCommand : Obligations.ResetOutranksTheCommand := by
  intro s w rest h
  rw [step_of_pending_cons h, inputEffect, if_pos rfl]
  rfl

/-- Settles O3: the step is the decoded command's, and a command's own word decodes to it. -/
theorem stepRunsTheDecodedCommand : Obligations.StepRunsTheDecodedCommand := by
  refine ⟨fun s w rest h => step_of_pending_command h, fun s i rest h => ?_⟩
  rw [step_of_pending_command h, decodeOfEncodeIsTheCommand i]

/-- R30: a MAX6675 frame is read back from the operand that carries it. -/
theorem frame6675Of_operandOf6675 (raw : Frame6675) : frame6675Of (operandOf6675 raw) = raw := by
  apply BitVec.eq_of_getLsbD_eq
  intro k hk
  simp [frame6675Of, operandOf6675, hk, show k < 32 by omega]

/-- R30, R51: a 16-bit frame has no bits in the thermocouple field. -/
theorem tcv31855_operandOf6675 (raw : Frame6675) : tcv31855 (operandOf6675 raw) = 0 := by
  have hfield : (operandOf6675 raw).extractLsb' 18 14 = 0#14 := by
    apply BitVec.eq_of_getLsbD_eq
    intro k hk
    simp [operandOf6675, BitVec.getLsbD_of_ge raw (18 + k) (by omega)]
  rw [tcv31855_eq_signed, hfield]
  rfl

/-- Settles O29: under MAX6675 both operands carry the same low half; under MAX31855 a fault writes a zero, and without
one the thermocouple field is empty. -/
theorem aFrameOfTheOtherModelDecodesByItsBits : Obligations.AFrameOfTheOtherModelDecodesByItsBits := by
  intro s hc
  refine ⟨fun hm raw => exec_dec_congr fun _ => ?_, fun hm raw => ?_⟩
  · rw [hm, decodeFrame, decodeFrame, frame6675Of_operandOf6675]
    rfl
  · by_cases hok : faultOf31855 (operandOf6675 raw) = .ok
    · exact ⟨_, exec_dec_of_faultOf31855_eq_ok hc hm hok, congrArg toI16 (tcv31855_operandOf6675 raw)⟩
    · exact ⟨_, exec_dec_of_faultOf31855_eq hc hm rfl hok, rfl⟩

end Sys2Proof.Machine
end

section
/-! SUPPORT. The order of commands (70_reset_and_hazards.md R114, R115, R119): which command of a sequence the result
registers and the configuration are from. -/

namespace Sys2Proof.Machine

theorem commandsEffect_append (l₁ l₂ : List Instr) (r : Registers) :
    commandsEffect (l₁ ++ l₂) r = commandsEffect l₂ (commandsEffect l₁ r) := List.foldl_append

/-- Everything a command other than DEC can do to the registers. -/
theorem commandEffect_cases_of_not_dec {i : Instr} (h : isDec i = false) (r : Registers) :
    commandEffect i r = r ∨ ∃ m, commandEffect i r = establishConfig m r := by
  cases i with
  | nop operand => exact .inl rfl
  | rsvd operand => exact .inl rfl
  | dec operand => exact absurd h (by simp [isDec])
  | cfg m ignored =>
    cases hc : r.cfgd with
    | true => exact .inl (commandEffect_cfg_of_configured m ignored hc)
    | false => exact .inr ⟨m, commandEffect_cfg_of_unconfigured m ignored hc⟩

/-- R103, R119: no command other than a DEC changes the result registers. -/
theorem commandsEffect_result_of_not_dec {l : List Instr} (h : ∀ i ∈ l, isDec i = false) (r : Registers) :
    (commandsEffect l r).tc = r.tc ∧ (commandsEffect l r).cj = r.cj ∧ (commandsEffect l r).fault = r.fault := by
  induction l generalizing r with
  | nil => exact ⟨rfl, rfl, rfl⟩
  | cons i l ih =>
    obtain ⟨hi, hl⟩ := List.forall_mem_cons.1 h
    rw [commandsEffect_cons]
    rcases commandEffect_cases_of_not_dec hi r with he | ⟨m, he⟩ <;> rw [he] <;> exact ih hl _

/-- Settles O48: the run is the commands before, the DEC and the rest, and the rest leaves what the DEC wrote. -/
theorem theResultIsTheLatestDecs : Obligations.TheResultIsTheLatestDecs := by
  rintro l₁ l₂ operand ⟨r, pending⟩ hl₂ rfl
  have hbefore := runSteps_commands l₁ ((Instr.dec operand :: l₂).map command) r
  have hwhole := runSteps_commands (l₁ ++ Instr.dec operand :: l₂) [] r
  rw [← List.map_append] at hbefore
  rw [List.append_nil, commandsEffect_append, commandsEffect_cons] at hwhole
  exact ⟨_, _, _, hbefore, exec_eq_commandEffect _ _, hwhole, commandsEffect_result_of_not_dec hl₂ _⟩

/-- The first CFG after commands that are none is the first CFG of the sequence. -/
theorem firstCfgTag_append_cfg {l₁ : List Instr} (h : ∀ i ∈ l₁, cfgTag i = none) (m : Model) (ignored : BitVec 31)
    (l₂ : List Instr) : firstCfgTag (l₁ ++ Instr.cfg m ignored :: l₂) = some m := by
  induction l₁ with
  | nil => exact firstCfgTag_cons _ _
  | cons i l₁ ih =>
    obtain ⟨hi, hl₁⟩ := List.forall_mem_cons.1 h
    rw [List.cons_append, firstCfgTag_cons, hi, Option.none_or, ih hl₁]

/-- R66: a decode that reports a fault has zeros for its temperatures. -/
theorem decodeFrame_zeros_of_fault {m : Model} {operand : Operand} (h : (decodeFrame m operand).f ≠ .ok) :
    (decodeFrame m operand).tcv = 0 ∧ (decodeFrame m operand).cjv = 0 := by
  cases m with
  | max6675 =>
    rw [decodeFrame, decode6675_f] at h
    rw [decodeFrame, decode6675, if_neg h]
    exact ⟨rfl, rfl⟩
  | max31855 =>
    rw [decodeFrame, decode31855_f] at h
    rw [decodeFrame, decode31855, if_neg h]
    exact ⟨rfl, rfl⟩

/-- R65, R66: with or without a fault, the temperatures written back are the decode's, narrowed. -/
theorem writeback_decodeFrame_temps (m : Model) (operand : Operand) (r : Registers) :
    (writeback (decodeFrame m operand) r).tc = toI16 (decodeFrame m operand).tcv ∧
    (writeback (decodeFrame m operand) r).cj = toI16 (decodeFrame m operand).cjv := by
  rcases writeback_cases (decodeFrame m operand) r with ⟨-, hw⟩ | ⟨hfault, hw⟩ <;> rw [hw]
  · exact ⟨rfl, rfl⟩
  · obtain ⟨htc, hcj⟩ := decodeFrame_zeros_of_fault hfault
    rw [htc, hcj]
    exact ⟨rfl, rfl⟩

/-- A run over a reset sample and presented commands completes with the commands' effect from reset. -/
theorem runSteps_reset_commands (w : Command) (l : List Instr) (r : Registers) :
    runSteps (⟨true, w⟩ :: l.map command).length { toRegisters := r, pending := ⟨true, w⟩ :: l.map command } =
      .next { toRegisters := commandsEffect l Registers.reset, pending := [] } := by
  rw [List.length_cons, runSteps_of_step (resetOutranksTheCommand _ w _ rfl), List.length_map,
    ← List.append_nil (l.map command)]
  exact runSteps_commands l [] Registers.reset

/-- Settles O49: from reset the first CFG fixes the configuration, whatever else comes before the final DEC, so that DEC
writes back the pure decode under that CFG's model. -/
theorem bootInTheRequiredOrderDecodes : Obligations.BootInTheRequiredOrderDecodes := by
  rintro ⟨r, pending⟩ w l₁ l₂ m ignored operand hl₁ rfl
  have hrun := runSteps_reset_commands w (l₁ ++ Instr.cfg m ignored :: l₂ ++ [Instr.dec operand]) r
  rw [commandsEffect_append, commandsEffect_cons, commandsEffect_nil] at hrun
  have hfirst := firstCfgTag_append_cfg hl₁ m ignored l₂
  have hcfgd := commandsEffect_cfgd (l₁ ++ Instr.cfg m ignored :: l₂) Registers.reset
  have hmodel := commandsEffect_model (l₁ ++ Instr.cfg m ignored :: l₂) Registers.reset
  rw [hfirst, reset_cfgd] at hcfgd hmodel
  generalize commandsEffect (l₁ ++ Instr.cfg m ignored :: l₂) Registers.reset = u at hrun hcfgd hmodel
  rw [commandEffect_dec_of_configured operand hcfgd, hmodel] at hrun
  obtain ⟨htc, hcj⟩ := writeback_decodeFrame_temps m operand u
  refine ⟨_, hrun, ?_, ?_, writeback_faultCode _ _, ?_, htc, hcj⟩
  · exact (writeback_cfgd _ _).trans hcfgd
  · exact (writeback_model _ _).trans hmodel
  · exact (writeback_faultCode _ _).trans_ne (decodeFrame_ne_notConfigured m operand)

end Sys2Proof.Machine
end
